-- ==== Sys2Proof/Word.lean ====
section
/-! DEFINITION. The words of the wwvb_dec correlation engine (WCE): the 32-bit bus and command word, the 27-bit byte
address of the bus, and the one-bit sample. Every other quantity of the spec is a natural number (R13). -/

namespace Sys2Proof

/-- One bus word: a register as the bus carries it, and a command word (R22, R90). Bit 0 is the least significant (R14). -/
abbrev Word := BitVec 32

/-- A byte address of the bus (R61: "byte addresses, 27 bits"). -/
abbrev BusAddr := BitVec 27

/-- One Sample: `false` is 0, the low carrier state; `true` is 1, the high one (R21, R66). -/
abbrev Sample := Bool

end Sys2Proof
end

