-- ==== Sys2Proof/Syntax.lean ====
section
/-! DEFINITION. The symbols (R16), the field indices (R8) and the six operations, one constructor for each row of
spec/opcode_table.json (R95). -/

namespace Sys2Proof

/-- A Symbol is "one of {ZERO, ONE, MARKER}" (R16). -/
inductive Symbol where
  | zero
  | one
  | marker
deriving DecidableEq, Repr

/-- A field index 0 .. 6 (R8); "Index 7 names no field", so it is no value of this type. -/
abbrev FieldIx := Fin 7

/-- HOURS, field 0 (R8). -/
abbrev FieldIx.hours : FieldIx := 0
/-- MINUTES, field 1 (R8). -/
abbrev FieldIx.minutes : FieldIx := 1
/-- DOY, day of year, field 2 (R8). -/
abbrev FieldIx.doy : FieldIx := 2
/-- YEAR, field 3 (R8). -/
abbrev FieldIx.year : FieldIx := 3
/-- LYI, leap-year indicator, field 4 (R8). -/
abbrev FieldIx.lyi : FieldIx := 4
/-- LSW, leap-second warning, field 5 (R8). -/
abbrev FieldIx.lsw : FieldIx := 5
/-- DST, DST code, field 6 (R8). -/
abbrev FieldIx.dst : FieldIx := 6

/-- The seven field indices in the source's order (R8). -/
abbrev FieldIx.all : List FieldIx := [0, 1, 2, 3, 4, 5, 6]

/-- One operation with its operands (R92, R93, R95). Operands are the unsigned numbers of R94: `start` is a sample
index, `sym` a symbol code (3 is encodable and names no symbol), `f` a field index (7 is encodable and names no field).
What a command word can hold is `Instr.wf`
(DESIGN CHOICE, safe: log 15). -/
inductive Instr where
  /-- `SCORE start, sym`: template error of one second against one symbol (R123). -/
  | score (sym start : Nat)
  /-- `CLASSIFY start`: the best symbol of one second (R126). -/
  | classify (start : Nat)
  /-- `FINDFRAME`: the frame-start search over the whole sample space (R144). -/
  | findframe
  /-- `DECFIELD start, f`: decode one field of the frame at `start` (R162). -/
  | decfield (f start : Nat)
  /-- `DECFRAME start`: decode all seven fields of the frame at `start` (R171). -/
  | decframe (start : Nat)
  /-- `DECODE`: FINDFRAME, then DECFRAME at the offset found (R175). -/
  | decode
deriving DecidableEq, Repr

end Sys2Proof
end

