-- ==== Sys2Proof/WellFormed.lean ====
section
/-! DEFINITION. Which instruction terms a command word can hold: each operand fits its field (R92, R93). A term with
`sym = 3`, `f = 7` or a `start` beyond the buffer is well formed (R94): the operation raises an error when it runs. -/

namespace Sys2Proof

/-- `start = w[23:0]` (R93); the assembler rejects any other value (R99: "`start` must be in 0 .. 2^24 − 1"). -/
def startFits (start : Nat) : Bool := decide (start < 2 ^ 24)

/-- `sym = w[25:24]` (R93). -/
def symFits (sym : Nat) : Bool := decide (sym < 4)

/-- `f = w[26:24]` (R93). -/
def fieldFits (f : Nat) : Bool := decide (f < 8)

/-- Every operand fits the field of the command word that carries it (R93). -/
def Instr.wf : Instr → Bool
  | .score sym start => symFits sym && startFits start
  | .classify start => startFits start
  | .findframe => true
  | .decfield f start => fieldFits f && startFits start
  | .decframe start => startFits start
  | .decode => true

end Sys2Proof
end

