-- ==== Sys2Proof/Decode.lean ====
section
/-! DEFINITION. The command word: field extraction (R14, R93), the opcode map (R95), the total decoder (R91) that rejects
an illegal word by name (R96), and the encoder of R92 and R99. -/

namespace Sys2Proof

/-- `w[hi:lo]` as an unsigned number (R14). -/
def bits (w : Word) (hi lo : Nat) : Nat := (w.toNat >>> lo) % 2 ^ (hi + 1 - lo)

/-- The rows of the opcode map (R95). -/
inductive Op where
  | score
  | classify
  | findframe
  | decfield
  | decframe
  | decode
deriving DecidableEq, Repr

/-- The rows in the table's order. -/
def Op.all : List Op := [.score, .classify, .findframe, .decfield, .decframe, .decode]

/-- The mask column of R95. -/
def Op.mask : Op → Word
  | .score => 0xFC000000#32
  | .classify => 0xFF000000#32
  | .findframe => 0xFFFFFFFF#32
  | .decfield => 0xF8000000#32
  | .decframe => 0xFF000000#32
  | .decode => 0xFFFFFFFF#32

/-- The match column of R95. -/
def Op.pattern : Op → Word
  | .score => 0x10000000#32
  | .classify => 0x20000000#32
  | .findframe => 0x30000000#32
  | .decfield => 0x40000000#32
  | .decframe => 0x50000000#32
  | .decode => 0x60000000#32

/-- "row r matches when `(w AND mask_r) = match_r`" (R91). -/
def Op.selects (o : Op) (w : Word) : Bool := (w &&& o.mask) == o.pattern

/-- The operand fields of a word, by row (R93, R95): `sym = w[25:24]`, `f = w[26:24]`, `start = w[23:0]`. -/
def Op.operands (o : Op) (w : Word) : Instr :=
  match o with
  | .score => .score (bits w 25 24) (bits w 23 0)
  | .classify => .classify (bits w 23 0)
  | .findframe => .findframe
  | .decfield => .decfield (bits w 26 24) (bits w 23 0)
  | .decframe => .decframe (bits w 23 0)
  | .decode => .decode

/-- Why a word is illegal: the five kinds of R96, in its order. -/
inductive IllegalWord where
  /-- R96(a): `op` = 0x0 or 0x7 .. 0xF. -/
  | noSuchOp
  /-- R96(b): SCORE with `w[27:26] ≠ 0`. -/
  | scoreSelHigh
  /-- R96(c): CLASSIFY or DECFRAME with `w[27:24] ≠ 0`. -/
  | selNotZero
  /-- R96(d): DECFIELD with `w[27] = 1`. -/
  | fieldSelHigh
  /-- R96(e): FINDFRAME or DECODE with `w[27:0] ≠ 0`. -/
  | operandsNotZero
deriving DecidableEq, Repr

/-- The kind of R96 that a word no row matches belongs to, by its `op = w[31:28]`. -/
def illegalKind (w : Word) : IllegalWord :=
  match bits w 31 28 with
  | 1 => .scoreSelHigh
  | 2 => .selNotZero
  | 3 => .operandsNotZero
  | 4 => .fieldSelHigh
  | 5 => .selNotZero
  | 6 => .operandsNotZero
  | _ => .noSuchOp

/-- Decoding a command word (R91): the row that matches gives the operation; a word that matches none is illegal. -/
def decode (w : Word) : Except IllegalWord Instr :=
  match Op.all.find? (fun o => o.selects w) with
  | some o => .ok (o.operands w)
  | none => .error (illegalKind w)

/-- The command word of an instruction (R92, R99: base word + `sym`, `f` shifted to bit 24 + `start`). It is the word of
`i` when `i.wf` holds. -/
def encode : Instr → Word
  | .score sym start => BitVec.ofNat 32 (0x10000000 + (sym <<< 24) + start)
  | .classify start => BitVec.ofNat 32 (0x20000000 + start)
  | .findframe => 0x30000000#32
  | .decfield f start => BitVec.ofNat 32 (0x40000000 + (f <<< 24) + start)
  | .decframe start => BitVec.ofNat 32 (0x50000000 + start)
  | .decode => 0x60000000#32

/-- A command word as spec/opcode_table.json numbers its bits: bit 0 the least significant, every bit above `nbits` zero.
A command is one 32-bit word (R90), so the table's numbering is the word's own. -/
def wordOfTable (nbits w : Nat) : Word := BitVec.ofNat 32 (w % 2 ^ nbits)

/-- What `decode` reads from a word of the opcode table; `none` where the word is illegal. -/
def decodeTableWord (nbits w : Nat) : Option Instr :=
  match decode (wordOfTable nbits w) with
  | .ok i => some i
  | .error _ => none

end Sys2Proof
end

