-- ==== Sys2Proof/Config.lean ====
section
/-! DEFINITION. The configuration record `Cfg` (R6), its derived constants (R7), the reference configuration WCE-1
(R6, R9, R10), and the free values: what the spec leaves unspecified. -/

namespace Sys2Proof

/-- One entry of FIXMAP: a position in seconds and the symbol expected there (R6). -/
structure FixedPos where
  pos : Nat
  sym : Symbol
deriving DecidableEq, Repr

/-- One entry of a field's code: a position in seconds and its weight (R6). -/
structure CodePair where
  pos : Nat
  weight : Nat
deriving DecidableEq, Repr

/-- The configuration record (R6): constants of the block, the read-only tables among them (R11). -/
structure Cfg where
  /-- SPS, samples per second. -/
  sps : Nat
  /-- BUFSEC, buffer length in seconds. -/
  bufsec : Nat
  /-- FIXMAP, the fixed positions of a frame. -/
  fixmap : List FixedPos
  /-- FIELD[f], the codes of the seven fields. -/
  field : Vector (List CodePair) 7
  /-- FAILURE_SCORE, the numeric FAILURE sentinel. -/
  failureScore : Nat
  /-- TIER_OK_LT, a threshold of the host's Reliability Classifier. -/
  tierOkLt : Nat
  /-- TIER_NR_LT, the other threshold. -/
  tierNrLt : Nat
deriving DecidableEq, Repr

/-- FRAMESEC: "fixed at 60, not configurable" (R6). -/
abbrev frameSec : Nat := 60

/-- LOWNUM(sym): tenths of the second that are low (R6: "fixed: ZERO 2, ONE 5, MARKER 8"). -/
def Symbol.lowNum : Symbol → Nat
  | .zero => 2
  | .one => 5
  | .marker => 8

/-- N = SPS × BUFSEC, the number of sample cells (R7). -/
def Cfg.n (c : Cfg) : Nat := c.sps * c.bufsec

/-- FRAMELEN = 60 × SPS (R7). -/
def Cfg.frameLen (c : Cfg) : Nat := frameSec * c.sps

/-- LOWLEN(sym) = SPS × LOWNUM(sym) / 10 (R7). -/
def Cfg.lowLen (c : Cfg) (sym : Symbol) : Nat := c.sps * sym.lowNum / 10

/-- LASTCAND = N − FRAMELEN, the last candidate offset of the frame search (R7). -/
def Cfg.lastCand (c : Cfg) : Nat := c.n - c.frameLen

/-- No number stands twice in the list. -/
def allDistinct : List Nat → Bool
  | [] => true
  | x :: xs => !xs.contains x && allDistinct xs

/-- A symbol FIXMAP may expect: ZERO or MARKER (R6). -/
def Symbol.fixable : Symbol → Bool
  | .zero => true
  | .one => false
  | .marker => true

/-- The sum of a code's weights. -/
def weightSum (code : List CodePair) : Nat := (code.map CodePair.weight).sum

/-- The constraints on SPS (R6). -/
def Cfg.spsOk (c : Cfg) : Bool := c.sps % 10 == 0 && decide (10 ≤ c.sps) && decide (c.sps ≤ 3640)

/-- The constraints on BUFSEC (R6). -/
def Cfg.bufsecOk (c : Cfg) : Bool := decide (120 ≤ c.bufsec) && decide (c.sps * c.bufsec < 2 ^ 24)

/-- The constraints on FIXMAP (R6): 18 entries, positions in 0 .. 59 and pairwise distinct, symbols ZERO or MARKER. -/
def Cfg.fixmapOk (c : Cfg) : Bool :=
  c.fixmap.length == 18 && c.fixmap.all (fun e => decide (e.pos < frameSec) && e.sym.fixable)
    && allDistinct (c.fixmap.map FixedPos.pos)

/-- The constraints on one FIELD[f] (R6). -/
def codeOk (code : List CodePair) : Bool :=
  decide (1 ≤ code.length) && decide (code.length ≤ 16)
    && code.all (fun e => decide (e.pos < frameSec) && decide (1 ≤ e.weight)) && decide (weightSum code ≤ 65535)

/-- The constraints on FAILURE_SCORE (R6): above every sum a field of this configuration can reach, and 16 bits wide. -/
def Cfg.failureScoreOk (c : Cfg) : Bool :=
  FieldIx.all.all (fun f => decide (c.field[f].length * c.sps < c.failureScore)) && decide (c.failureScore ≤ 65535)

/-- Every constraint of R6: "A `Cfg` that breaks a constraint is refused". -/
def Cfg.valid (c : Cfg) : Bool :=
  c.spsOk && c.bufsecOk && c.fixmapOk && FieldIx.all.all (fun f => codeOk c.field[f])
    && c.failureScoreOk && decide (c.tierOkLt ≤ c.tierNrLt)

/-- The default FIXMAP (R9). -/
def wce1Fixmap : List FixedPos :=
  [⟨0, .marker⟩, ⟨4, .zero⟩, ⟨9, .marker⟩, ⟨10, .zero⟩, ⟨11, .zero⟩, ⟨14, .zero⟩,
   ⟨19, .marker⟩, ⟨20, .zero⟩, ⟨21, .zero⟩, ⟨24, .zero⟩, ⟨29, .marker⟩, ⟨34, .zero⟩,
   ⟨35, .zero⟩, ⟨39, .marker⟩, ⟨44, .zero⟩, ⟨49, .marker⟩, ⟨54, .zero⟩, ⟨59, .marker⟩]

/-- The default FIELD[0..6] (R10). -/
def wce1Field : Vector (List CodePair) 7 :=
  #v[[⟨12, 20⟩, ⟨13, 10⟩, ⟨15, 8⟩, ⟨16, 4⟩, ⟨17, 2⟩, ⟨18, 1⟩],
     [⟨1, 40⟩, ⟨2, 20⟩, ⟨3, 10⟩, ⟨5, 8⟩, ⟨6, 4⟩, ⟨7, 2⟩, ⟨8, 1⟩],
     [⟨22, 200⟩, ⟨23, 100⟩, ⟨25, 80⟩, ⟨26, 40⟩, ⟨27, 20⟩, ⟨28, 10⟩, ⟨30, 8⟩, ⟨31, 4⟩, ⟨32, 2⟩, ⟨33, 1⟩],
     [⟨45, 80⟩, ⟨46, 40⟩, ⟨47, 20⟩, ⟨48, 10⟩, ⟨50, 8⟩, ⟨51, 4⟩, ⟨52, 2⟩, ⟨53, 1⟩],
     [⟨55, 1⟩],
     [⟨56, 1⟩],
     [⟨57, 2⟩, ⟨58, 1⟩]]

/-- WCE-1, the reference configuration: every default of R6, R9 and R10. -/
def Cfg.wce1 : Cfg where
  sps := 40
  bufsec := 120
  fixmap := wce1Fixmap
  field := wce1Field
  failureScore := 65535
  tierOkLt := 7
  tierNrLt := 10

/-- FREE VALUE: the bit a sample cell holds when the host has written nothing to it. R46: "every cell of `SMP` holds an
unspecified bit after reset, and a model must treat the initial buffer as a free input". Nothing constrains it.
DEDUCED that a later reset edge keeps it: log 4. -/
opaque Config.freeSample : Nat → Sample

/-- FREE VALUE: what the bus carries when a result register is read while BUSY = 1 (R242: "any 32-bit value whose bits
above the register's width are 0, drawn afresh at every read"); the argument counts those reads. Nothing constrains it
(DESIGN CHOICE, safe: log 9). -/
opaque Config.freeRead : Nat → Word

end Sys2Proof
end

