-- ==== Sys2Proof/Machine/State.lean ====
section
/-! DEFINITION. The state of the block (R20) beside the model's own bookkeeping, the reasons a step can stop, and the
state right after reset (R46). -/

namespace Sys2Proof.Machine

/-- The sample space `SMP` (R21, R60): the cells the host has written, as (index, bit) pairs, indices strictly rising.
An index that is not listed holds its unspecified initial bit, `Config.freeSample` (R46). A cell is one bit (R60), so the
second component is a bit, not a byte (DESIGN CHOICE, safe: log 3). -/
abbrev Memory := List (Nat × Sample)

/-- The command errors and their names (R201). -/
inductive CmdError where
  /-- NONE: the operation completed normally. -/
  | noError
  /-- ILLEGAL: raised by command decode (R202). -/
  | illegal
  /-- OPERAND: raised by SCORE with `sym = 3` and DECFIELD with `f = 7` (R203). -/
  | operand
  /-- BOUNDS: raised by SCORE, CLASSIFY, DECFIELD and DECFRAME (R204). -/
  | bounds
deriving DecidableEq, Repr

/-- One turn of the run: what the host does at the bus or the reset pin, or the turn of the engine (R12, R240). -/
inductive Turn where
  /-- A host write of `data` to byte address `addr`, `size` bytes wide (R61, R62). -/
  | write (addr : BusAddr) (size : Nat) (data : Word)
  /-- A host read of byte address `addr`, `size` bytes wide (R61, R62). -/
  | read (addr : BusAddr) (size : Nat)
  /-- A rising edge of `clk` with `rst` = 1 (R230). -/
  | rst
  /-- The running operation, if any, completes (R42). -/
  | engine
deriving DecidableEq, Repr

/-- The state. Every register of R22 stands under its own name; `CMD` has no storage (R23) and the `CFG_*` registers read
the configuration (R35), so they have no field. -/
structure State where
  /-- The configuration (R6): a parameter of every step, carried here because a step has no other argument; nothing
  writes it (R11, R35). DESIGN CHOICE, safe: log 1. -/
  cfg : Cfg
  /-- `SMP` (R21). -/
  smp : Memory
  /-- The accepted command word while its operation executes; `none` while the engine is idle. `STATUS.BUSY` (R24, R42)
  is 1 exactly when it is present. DESIGN CHOICE, safe: log 5. -/
  running : Option Word
  /-- `STATUS.DONE` (R24). -/
  done : Bool
  /-- `STATUS.ERR` (R24, R201). -/
  err : CmdError
  /-- `STATUS.ANYERR` (R24). -/
  anyErr : Bool
  /-- `STATUS.OVR` (R24). -/
  ovr : Bool
  /-- `R_SYM`, register 2 (R25). -/
  rSym : BitVec 2
  /-- `R_SCORE`, register 3 (R26). -/
  rScore : BitVec 16
  /-- `R_OFFSET`, register 4 (R27). -/
  rOffset : BitVec 24
  /-- `R_SYNCERR`, register 5 (R28). -/
  rSyncerr : BitVec 16
  /-- `A_SCORE`, register 6 (R33). -/
  aScore : BitVec 32
  /-- `A_WORST`, register 7 (R34). -/
  aWorst : BitVec 16
  /-- `F_FAIL`, register 8 (R32). -/
  fFail : BitVec 7
  /-- `F_VALUE[f]`, registers 16+f (R29). -/
  fValue : Vector (BitVec 16) 7
  /-- `F_SCORE[f]`, registers 24+f (R30). -/
  fScore : Vector (BitVec 16) 7
  /-- `F_WORST[f]`, registers 32+f (R31). -/
  fWorst : Vector (BitVec 16) 7
  /-- MODEL'S OWN: the turns to come, oldest first: the one sequence of host actions and engine operations (R240). DESIGN CHOICE,
  unsafe as to its reset value: log 7. -/
  schedule : List Turn
  /-- MODEL'S OWN: the read data of the last bus read (R231). DESIGN CHOICE, its reset value unsafe: log 8. -/
  rdata : Word
  /-- MODEL'S OWN: how many unspecified reads (R242) were made; the argument of the next `Config.freeRead`.
  DESIGN CHOICE, safe: log 9. -/
  freeReads : Nat
deriving DecidableEq, Repr

/-- Why the machine stops with a fault: never. The block has no trap and no stuck state: a command error (R201) is a next
state in which only STATUS changed (R206), and every operation completes (R42). Nothing raises a fault;
DEDUCED, safe: log 12. -/
inductive Fault where
deriving DecidableEq, Repr

/-- Why a step has no meaning. -/
inductive Refusal where
  /-- Raised by an arm of `exec` whose instruction has no meaning; no arm does so. Safe. -/
  | notModelled (mnemonic : String)
  /-- Raised by `step` when the configuration breaks a constraint of R6 ("A `Cfg` that breaks a constraint is refused:
  the model gives it no meaning"). DEDUCED, safe: log 2. -/
  | invalidCfg
  /-- Raised by a host turn whose bus access is not one aligned 32-bit word (R62: "the model refuses them (gives them no
  meaning)"). DEDUCED, safe: log 10. -/
  | notAlignedWord
deriving DecidableEq, Repr

/-- The state after power-up and reset of a block built with configuration `c` (R46, R230): every register 0, the engine
idle, nothing known of the sample space. The turns to come are `[]`: no host action is invented. -/
def State.resetOf (c : Cfg) : State where
  cfg := c
  smp := []
  running := none
  done := false
  err := .noError
  anyErr := false
  ovr := false
  rSym := 0
  rScore := 0
  rOffset := 0
  rSyncerr := 0
  aScore := 0
  aWorst := 0
  fFail := 0
  fValue := #v[0, 0, 0, 0, 0, 0, 0]
  fScore := #v[0, 0, 0, 0, 0, 0, 0]
  fWorst := #v[0, 0, 0, 0, 0, 0, 0]
  schedule := []
  rdata := 0
  freeReads := 0

/-- The reference block WCE-1 (R6) right after reset. -/
def State.reset : State := State.resetOf Cfg.wce1

end Sys2Proof.Machine
end

