-- ==== Sys2Proof/Machine/Ops.lean ====
section
/-! DEFINITION. The named operations over the sample space and the registers, and the three events of a command's life:
its acceptance (which is also the return from an error, R207), its normal completion, and the raising of an error (R206). -/

namespace Sys2Proof.Machine

/-! ### The sample space as the host sees it -/

/-- The bit the host last wrote to cell `i`, if any. -/
def Memory.read? : Memory → Nat → Option Sample
  | [], _ => none
  | (j, b) :: m, i => if i = j then some b else Memory.read? m i

/-- `MemWrite(SMP, i, 1, b)` (R15, R70): cell `i` takes `b`, every other cell keeps its bit. The list stays in order. -/
def Memory.write : Memory → Nat → Sample → Memory
  | [], i, b => [(i, b)]
  | (j, v) :: m, i, b =>
    if i < j then (i, b) :: (j, v) :: m
    else if i = j then (i, b) :: m
    else (j, v) :: Memory.write m i b

/-- The canonical form: indices strictly rising. A listed cell is never equal to what an unlisted one reads as, which is
no written bit at all. -/
def Memory.wf : Memory → Bool
  | [] => true
  | [_] => true
  | (i, _) :: (j, b) :: m => decide (i < j) && Memory.wf ((j, b) :: m)

/-- Every listed index is a cell of a sample space of `n` cells (R60: "index 0 .. N−1"). -/
def Memory.inBounds (m : Memory) (n : Nat) : Bool := m.all (fun e => decide (e.1 < n))

/-- The bit cell `i` holds: the one the host last wrote, or the unspecified initial bit (R67). -/
def State.sample (s : State) (i : Nat) : Sample := (s.smp.read? i).getD (Config.freeSample i)

/-! ### The sample space as an operation sees it -/

/-- The contents of the sample space when a command starts, which no host action can change until it completes (R74,
R77): bit `i` of `written` says whether the host has written cell `i`, bit `i` of `level` what it wrote. -/
structure Samples where
  written : Nat
  level : Nat
deriving DecidableEq, Repr

/-- `k n`, with `n` computed first. -/
def forced {α : Type} (n : Nat) (k : Nat → α) : α :=
  match n with
  | 0 => k 0
  | m + 1 => k (m + 1)

/-- Adds the listed cells to the two bit maps; of two entries with one index the first counts. -/
def Memory.collect : Memory → Nat → Nat → Samples
  | [], w, l => ⟨w, l⟩
  | (i, b) :: m, w, l =>
    bif w.testBit i then Memory.collect m w l
    else forced (w ||| 1 <<< i) fun w' => forced (bif b then l ||| 1 <<< i else l) fun l' => Memory.collect m w' l'

/-- The contents the engine reads (R74). -/
def State.samples (s : State) : Samples := s.smp.collect 0 0

/-- `S[i]` (R15, R67): the only memory access of the engine. -/
def Samples.at (S : Samples) (i : Nat) : Sample :=
  bif S.written.testBit i then S.level.testBit i else Config.freeSample i

/-- Σ_{i = 0}^{n−1} f i (R13: no sum wraps). -/
def sumTo (f : Nat → Nat) : Nat → Nat
  | 0 => 0
  | n + 1 => sumTo f n + f n

/-! ### Registers -/

/-- `R_SYM`, `R_SCORE` (R38, rows SCORE and CLASSIFY). -/
def State.setSymScore (s : State) (code score : Nat) : State :=
  { s with rSym := BitVec.ofNat 2 code, rScore := BitVec.ofNat 16 score }

/-- `R_OFFSET`, `R_SYNCERR` (R38, row FINDFRAME). -/
def State.setSync (s : State) (off tot : Nat) : State :=
  { s with rOffset := BitVec.ofNat 24 off, rSyncerr := BitVec.ofNat 16 tot }

/-- `F_FAIL` with bit `f` set to `b` and the other bits kept (R32). -/
def withFailBit (v : BitVec 7) (f : FieldIx) (b : Bool) : BitVec 7 :=
  bif b then v ||| (1#7 <<< f.val) else v &&& ~~~(1#7 <<< f.val)

/-- `F_VALUE[f]`, `F_SCORE[f]`, `F_WORST[f]` and bit `f` of `F_FAIL` (R38, row DECFIELD: "only index f"). -/
def State.setField (s : State) (f : FieldIx) (value score worst : Nat) (fail : Bool) : State :=
  { s with
    fValue := s.fValue.set f (BitVec.ofNat 16 value)
    fScore := s.fScore.set f (BitVec.ofNat 16 score)
    fWorst := s.fWorst.set f (BitVec.ofNat 16 worst)
    fFail := withFailBit s.fFail f fail }

/-- The seven values of a field register array (R22). -/
def fieldArray (r : FieldIx → Nat) : Vector (BitVec 16) 7 :=
  #v[BitVec.ofNat 16 (r 0), BitVec.ofNat 16 (r 1), BitVec.ofNat 16 (r 2), BitVec.ofNat 16 (r 3), BitVec.ofNat 16 (r 4),
    BitVec.ofNat 16 (r 5), BitVec.ofNat 16 (r 6)]

/-- `F_FAIL` with every bit given (R32). -/
def failBits (r : FieldIx → Bool) : BitVec 7 := FieldIx.all.foldl (fun v f => withFailBit v f (r f)) 0

/-- `F_VALUE[0..6]`, `F_SCORE[0..6]`, `F_WORST[0..6]`, all of `F_FAIL`, `A_SCORE` and `A_WORST` (R38, row DECFRAME). -/
def State.setFrame (s : State) (value score worst : FieldIx → Nat) (fail : FieldIx → Bool) (total maxWorst : Nat) : State :=
  { s with
    fValue := fieldArray value
    fScore := fieldArray score
    fWorst := fieldArray worst
    fFail := failBits fail
    aScore := BitVec.ofNat 32 total
    aWorst := BitVec.ofNat 16 maxWorst }

/-! ### The life of a command -/

/-- `STATUS.BUSY` (R24, R42): 1 while an operation is executing. -/
def State.busy (s : State) : Bool := s.running.isSome

/-- Acceptance of a command word (R23, R24): BUSY becomes 1, DONE and ERR become 0. This is the only return from an error:
"The next accepted command word sets `STATUS.ERR` back to 0 at acceptance"; ANYERR stays (R207). -/
def State.accept (s : State) (w : Word) : State :=
  { s with running := some w, done := false, err := .noError }

/-- Normal completion (R24): BUSY 0, DONE 1, ERR = NONE. -/
def State.complete (s : State) : State :=
  { s with running := none, done := true, err := .noError }

/-- Taking an error, the one shared operation (R206): ERR takes the code, ANYERR becomes 1, BUSY 0, DONE 1. "Nothing else
changes", and "Control goes nowhere: there is no handler, no vector table, no saved state and no mode change". -/
def State.raise (s : State) (e : CmdError) : State :=
  { s with running := none, done := true, err := e, anyErr := true }

/-- A rising clock edge with `rst` = 1 (R230): every register 0, the engine idle, a running operation abandoned; the
sample space and the configuration are not changed. The host's own turns to come, the data of its last read and the count
of free values are no registers and stay (DESIGN CHOICE: log 8; DEDUCED for unwritten cells, unsafe: log 4). -/
def State.rstEdge (s : State) : State :=
  { State.resetOf s.cfg with smp := s.smp, schedule := s.schedule, rdata := s.rdata, freeReads := s.freeReads }

/-- How an operation ends: what it computed is committed together with BUSY and DONE (R42), or one error is raised and
nothing else is written (R206). -/
def finish (s : State) (r : Except CmdError State) : Host.Outcome State Fault Refusal :=
  match r with
  | .ok t => .next t.complete
  | .error e => .next (s.raise e)

end Sys2Proof.Machine
end

