-- ==== Sys2Proof/Machine/Flags.lean ====
section
/-! DEFINITION. The STATUS register as the bus reads it (R24), the error codes (R201), and the sticky OVR flag (R241). -/

namespace Sys2Proof.Machine

/-- The code of an error in `STATUS.ERR` (R201); codes 4 .. 7 are never produced. -/
def CmdError.code : CmdError → Nat
  | .noError => 0
  | .illegal => 1
  | .operand => 2
  | .bounds => 3

/-- STATUS (R24): BUSY bit 0, DONE bit 1, ERR bits 4:2, ANYERR bit 5, OVR bit 6, bits 31:7 read 0. -/
def State.statusWord (s : State) : Word :=
  BitVec.ofNat 32 (s.busy.toNat + 2 * s.done.toNat + 4 * CmdError.code s.err + 32 * s.anyErr.toNat + 64 * s.ovr.toNat)

/-- A host write to `CMD` or to a sample cell was dropped because BUSY = 1: OVR is set and nothing else changes (R241). -/
def State.dropWrite (s : State) : State := { s with ovr := true }

end Sys2Proof.Machine
end

