-- ==== Sys2Proof/Machine/Bus.lean ====
section
/-! DEFINITION. The bus: the address map (R61), the register map (R22), and what a host write, a host read and a reset edge
do while the engine is idle or busy (R23, R37, R70, R71, R230, R241, R242). -/

namespace Sys2Proof.Machine

/-- The registers of R22. -/
inductive RegName where
  | cmd
  | status
  | rSym
  | rScore
  | rOffset
  | rSyncerr
  | aScore
  | aWorst
  | fFail
  | fValue (f : FieldIx)
  | fScore (f : FieldIx)
  | fWorst (f : FieldIx)
  | cfgSps
  | cfgN
  | cfgFailscore
  | reserved
deriving DecidableEq, Repr

/-- The register with number `r` (R22): 16+f, 24+f and 32+f are the field registers; 9–15, 23, 31, 39 and 43–63 are
reserved. -/
def regOf (r : Nat) : RegName :=
  match r with
  | 0 => .cmd
  | 1 => .status
  | 2 => .rSym
  | 3 => .rScore
  | 4 => .rOffset
  | 5 => .rSyncerr
  | 6 => .aScore
  | 7 => .aWorst
  | 8 => .fFail
  | 40 => .cfgSps
  | 41 => .cfgN
  | 42 => .cfgFailscore
  | _ =>
    if h : 16 ≤ r ∧ r < 23 then .fValue ⟨r - 16, by omega⟩
    else if h : 24 ≤ r ∧ r < 31 then .fScore ⟨r - 24, by omega⟩
    else if h : 32 ≤ r ∧ r < 39 then .fWorst ⟨r - 32, by omega⟩
    else .reserved

/-- The "Width" column of R22: how many low bits carry the value. -/
def RegName.width : RegName → Nat
  | .cmd => 32
  | .status => 7
  | .rSym => 2
  | .rScore => 16
  | .rOffset => 24
  | .rSyncerr => 16
  | .aScore => 32
  | .aWorst => 16
  | .fFail => 7
  | .fValue _ => 16
  | .fScore _ => 16
  | .fWorst _ => 16
  | .cfgSps => 16
  | .cfgN => 24
  | .cfgFailscore => 16
  | .reserved => 0

/-- The result registers, `R_*`, `F_*` and `A_*` (R242). -/
def RegName.isResult : RegName → Bool
  | .cmd => false
  | .status => false
  | .rSym => true
  | .rScore => true
  | .rOffset => true
  | .rSyncerr => true
  | .aScore => true
  | .aWorst => true
  | .fFail => true
  | .fValue _ => true
  | .fScore _ => true
  | .fWorst _ => true
  | .cfgSps => false
  | .cfgN => false
  | .cfgFailscore => false
  | .reserved => false

/-- The value a register holds, zero-extended to the bus word: "the bits above it always read 0" (R22); `CMD` reads 0 (R23),
a reserved register reads 0 (R36), a `CFG_*` register reads its constant (R35). -/
def State.regValue (s : State) : RegName → Word
  | .cmd => 0
  | .status => s.statusWord
  | .rSym => s.rSym.setWidth 32
  | .rScore => s.rScore.setWidth 32
  | .rOffset => s.rOffset.setWidth 32
  | .rSyncerr => s.rSyncerr.setWidth 32
  | .aScore => s.aScore
  | .aWorst => s.aWorst.setWidth 32
  | .fFail => s.fFail.setWidth 32
  | .fValue f => s.fValue[f].setWidth 32
  | .fScore f => s.fScore[f].setWidth 32
  | .fWorst f => s.fWorst[f].setWidth 32
  | .cfgSps => BitVec.ofNat 32 s.cfg.sps
  | .cfgN => BitVec.ofNat 32 s.cfg.n
  | .cfgFailscore => BitVec.ofNat 32 s.cfg.failureScore
  | .reserved => 0

/-- What a byte address selects (R61). -/
inductive BusTarget where
  | reg (r : Nat)
  | cell (i : Nat)
  | unmapped
deriving DecidableEq, Repr

/-- The first byte address of the sample window (R61). -/
def sampleBase : Nat := 0x4000000

/-- The bus address map (R61): 64 registers from 0, N sample cells from `0x4000000`, one word each; the rest unmapped. -/
def busTarget (c : Cfg) (addr : BusAddr) : BusTarget :=
  if addr.toNat < 0x100 then .reg (addr.toNat / 4)
  else if sampleBase ≤ addr.toNat ∧ addr.toNat < sampleBase + 4 * c.n then .cell ((addr.toNat - sampleBase) / 4)
  else .unmapped

/-- "Every bus access is one aligned 32-bit word: byte address a multiple of 4, all four byte lanes" (R62). -/
def alignedWord (addr : BusAddr) (size : Nat) : Bool := size == 4 && addr.toNat % 4 == 0

/-- The host writes cell `i` while the engine is idle: it takes bit 0 of the data, "bits 31:1 of the data are ignored"
(R70; DEDUCED, safe: log 11). -/
def State.storeSample (s : State) (i : Nat) (data : Word) : State :=
  { s with smp := s.smp.write i (data.getLsbD 0) }

/-- What a host write of one aligned word does. To `CMD`: the issue of a command word (R23). To a sample cell: R70. Either
is dropped and sets OVR while BUSY = 1 (R241). To any other register (R37), a reserved register (R36) or an unmapped
address (R61): nothing. -/
def State.busWrite (s : State) (addr : BusAddr) (data : Word) : State :=
  match busTarget s.cfg addr with
  | .reg r =>
    match regOf r with
    | .cmd => bif s.busy then s.dropWrite else s.accept data
    | _ => s
  | .cell i => bif s.busy then s.dropWrite else s.storeSample i data
  | .unmapped => s

/-- The bus carries `d` to the host. -/
def State.answer (s : State) (d : Word) : State := { s with rdata := d }

/-- An unspecified value for register `k` (R242): any value whose bits above the register's width are 0, a new one at every
read. -/
def State.answerFree (s : State) (k : RegName) : State :=
  { s with
    rdata := BitVec.ofNat 32 ((Config.freeRead s.freeReads).toNat % 2 ^ k.width)
    freeReads := s.freeReads + 1 }

/-- What a host read of one aligned word does: it has no effect but its answer (R71). A result register read while BUSY = 1
answers an unspecified value; everything else answers the true value (R242). An unmapped address answers 0 (R61). -/
def State.busRead (s : State) (addr : BusAddr) : State :=
  match busTarget s.cfg addr with
  | .reg r => bif s.busy && (regOf r).isResult then s.answerFree (regOf r) else s.answer (s.regValue (regOf r))
  | .cell i => s.answer (BitVec.ofNat 32 (s.sample i).toNat)
  | .unmapped => s.answer 0

/-- A bus access that is not one aligned word has no meaning (R62; DEDUCED, safe: log 10). -/
def ifAligned (addr : BusAddr) (size : Nat) (t : State) : Host.Outcome State Fault Refusal :=
  bif alignedWord addr size then .next t else .refused .notAlignedWord

end Sys2Proof.Machine
end

