-- ==== Sys2Proof/Machine/Operands.lean ====
section
/-! DEFINITION. The operand forms of the six commands: a symbol code, a field index, a span start and a frame start, each
with the check the spec makes on it (R94, R97, R203, R204), and the two address forms (R68). -/

namespace Sys2Proof.Machine

/-- The 2-bit code of a symbol (R16). -/
def symCode : Symbol → Nat
  | .zero => 0
  | .one => 1
  | .marker => 2

/-- The symbol a code names; "code 3 names no symbol" (R16). -/
def symbolOf? : Nat → Option Symbol
  | 0 => some .zero
  | 1 => some .one
  | 2 => some .marker
  | _ => none

/-- The field an index names; "Index 7 names no field" (R8). -/
def fieldOf? (f : Nat) : Option FieldIx := if h : f < 7 then some ⟨f, h⟩ else none

/-- The symbol operand of SCORE: OPERAND when it names no symbol (R203). -/
def symOperand (sym : Nat) : Except CmdError Symbol :=
  match symbolOf? sym with
  | some y => .ok y
  | none => .error .operand

/-- The field operand of DECFIELD: OPERAND when it names no field (R203). -/
def fieldOperand (f : Nat) : Except CmdError FieldIx :=
  match fieldOf? f with
  | some g => .ok g
  | none => .error .operand

/-- The start operand of SCORE and CLASSIFY: BOUNDS when the one-second span does not fit, `start + SPS > N` (R204). -/
def spanOperand (c : Cfg) (start : Nat) : Except CmdError Nat :=
  if start + c.sps ≤ c.n then .ok start else .error .bounds

/-- The start operand of DECFIELD and DECFRAME: BOUNDS when the whole frame does not fit, `start + FRAMELEN > N` (R204). -/
def frameOperand (c : Cfg) (start : Nat) : Except CmdError Nat :=
  if start + c.frameLen ≤ c.n then .ok start else .error .bounds

/-- The span of position `p` of a frame that starts at `fs` starts at `fs + p × SPS` (R68). -/
def spanStart (c : Cfg) (fs p : Nat) : Nat := fs + p * c.sps

end Sys2Proof.Machine
end

