-- ==== Sys2Proof/Machine/SymbolMatcher.lean ====
section
/-! DEFINITION. The Symbol Matcher: templates (R121), `score` (R122), `classify` (R125), and the operations SCORE (R123)
and CLASSIFY (R126). -/

namespace Sys2Proof.Machine

/-- `tmpl(sym, i)` (R121): 0 for the first LOWLEN(sym) samples of the second, 1 for the rest.
That the low phase comes first is the spec's own decision D19 (UNVERIFIED: log 14). -/
def tmpl (c : Cfg) (sym : Symbol) (i : Nat) : Sample := decide (c.lowLen sym ≤ i)

/-- `score(st, sym)` (R122): how many samples of the span at `st` disagree with the template of `sym`. -/
def score (c : Cfg) (S : Samples) (st : Nat) (sym : Symbol) : Nat :=
  sumTo (fun i => (S.at (st + i) ^^ tmpl c sym i).toNat) c.sps

/-- The comparison of `classify` (R125): a later symbol replaces the best so far only with a strictly smaller score. -/
def better (best : Symbol × Nat) (sym : Symbol) (t : Nat) : Symbol × Nat :=
  if t < best.2 then (sym, t) else best

/-- `classify(st)` (R125): ONE, then ZERO, then MARKER, each replacing the best so far only if strictly smaller. -/
def classify (c : Cfg) (S : Samples) (st : Nat) : Symbol × Nat :=
  better (better (.one, score c S st .one) .zero (score c S st .zero)) .marker (score c S st .marker)

/-- `SCORE start, sym` (R123). -/
def execScore (sym start : Nat) (s : State) : Host.Outcome State Fault Refusal :=
  finish s do
    let y ← symOperand sym
    let st ← spanOperand s.cfg start
    pure (s.setSymScore (symCode y) (score s.cfg s.samples st y))

/-- `CLASSIFY start` (R126). -/
def execClassify (start : Nat) (s : State) : Host.Outcome State Fault Refusal :=
  finish s do
    let st ← spanOperand s.cfg start
    let r := classify s.cfg s.samples st
    pure (s.setSymScore (symCode r.1) r.2)

end Sys2Proof.Machine
end

