-- ==== Sys2Proof/Machine/FrameSynchronizer.lean ====
section
/-! DEFINITION. The Frame Synchronizer: the total of one candidate (R141), the reference search with its pruning (R145),
and the operation FINDFRAME (R144). R143 defines the result as the least total at its lowest offset; that the procedure
gives exactly this pair, with and without the pruning (R146), is stated in Certificates/Slice0/Obligations.lean. -/

namespace Sys2Proof.Machine

/-- The score of one FIXMAP entry for the candidate offset `c0`, against its expected symbol (R141). -/
def entryScore (c : Cfg) (S : Samples) (c0 : Nat) (e : FixedPos) : Nat := score c S (spanStart c c0 e.pos) e.sym

/-- `syncTotal(c0)` (R141): the scores of the 18 fixed positions, summed. -/
def syncTotal (c : Cfg) (S : Samples) (c0 : Nat) : Nat := (c.fixmap.map (entryScore c S c0)).sum

/-- One candidate, scored entry by entry and abandoned as soon as its partial sum exceeds `best` (R145): its total, or
`none` when it is abandoned. -/
def candidateTotal (c : Cfg) (S : Samples) (best c0 : Nat) : List FixedPos → Nat → Option Nat
  | [], total => some total
  | e :: es, total =>
    forced (total + entryScore c S c0 e) fun p =>
      bif Nat.blt best p then none else candidateTotal c S best c0 es p

/-- The candidates `c0`, `c0 + 1`, …, `c0 + k − 1`, against the running best `(off, tot)`: a later candidate replaces it
only with a strictly smaller total (R145). -/
def searchFrom (c : Cfg) (S : Samples) : Nat → Nat → Nat × Nat → Nat × Nat
  | 0, _, best => best
  | k + 1, c0, best =>
    match candidateTotal c S best.2 c0 c.fixmap 0 with
    | none => searchFrom c S k (c0 + 1) best
    | some t => searchFrom c S k (c0 + 1) (bif Nat.blt t best.2 then (c0, t) else best)

/-- `findFrame()` (R143), computed as R145 does: "This spec's procedure starts with no best, so that candidate 0 is always
completed and accepted" (R147); then the candidates 1 .. LASTCAND, the last included (R142). The pair is (offset, total).
DESIGN CHOICE, safe: log 13. -/
def findFrame (c : Cfg) (S : Samples) : Nat × Nat := searchFrom c S c.lastCand 1 (0, syncTotal c S 0)

/-- `FINDFRAME` (R144): it raises nothing. -/
def execFindframe (s : State) : Host.Outcome State Fault Refusal :=
  let r := findFrame s.cfg s.samples
  .next (s.setSync r.1 r.2).complete

end Sys2Proof.Machine
end

