-- ==== Sys2Proof/Machine/FieldDecoder.lean ====
section
/-! DEFINITION. The Field Decoder: one field (R161), the whole frame (R170), and the operations DECFIELD (R162), DECFRAME
(R171) and DECODE (R175). -/

namespace Sys2Proof.Machine

/-- What `decodeField` returns (R161). -/
structure FieldResult where
  value : Nat
  score : Nat
  worst : Nat
  fail : Bool
deriving DecidableEq, Repr

/-- `bitvalue(sym)`: 0 for ZERO and 1 for ONE; "MARKER has no bit value" (R16), and no call reaches it with MARKER. -/
def bitValue : Symbol → Nat
  | .zero => 0
  | .one => 1
  | .marker => 0

/-- What a failed field returns, "whatever the other positions hold" (R164). -/
def failedField (c : Cfg) : FieldResult := ⟨0, c.failureScore, c.sps, true⟩

/-- The loop of R161 over a field's code, with its three accumulators; a MARKER ends it at once. -/
def decodePairs (c : Cfg) (S : Samples) (fs : Nat) : List CodePair → Nat → Nat → Nat → FieldResult
  | [], value, scoreacc, worst => ⟨value, scoreacc, worst, false⟩
  | e :: es, value, scoreacc, worst =>
    let r := classify c S (spanStart c fs e.pos)
    match r.1 with
    | .marker => failedField c
    | sym => decodePairs c S fs es (value + e.weight * bitValue sym) (scoreacc + r.2) (max worst r.2)

/-- `decodeField(fs, f)` (R161): the accumulators start at 0. -/
def decodeField (c : Cfg) (S : Samples) (fs : Nat) (f : FieldIx) : FieldResult :=
  decodePairs c S fs c.field[f] 0 0 0

/-- The results of all seven fields, in the order of R8 (R170). -/
def frameResults (c : Cfg) (S : Samples) (fs : Nat) : List FieldResult := FieldIx.all.map (decodeField c S fs)

/-- "the sum of all field scores", a failed field adding FAILURE_SCORE (R170, R172). -/
def frameTotal (c : Cfg) (S : Samples) (fs : Nat) : Nat := ((frameResults c S fs).map FieldResult.score).sum

/-- "the maximum worst-position score across all fields" (R170). -/
def frameWorst (c : Cfg) (S : Samples) (fs : Nat) : Nat := ((frameResults c S fs).map FieldResult.worst).foldr max 0

/-- Writes the registers of field `f` (R162). -/
def State.putField (s : State) (f : FieldIx) (r : FieldResult) : State := s.setField f r.value r.score r.worst r.fail

/-- Writes the registers of all seven fields and the aggregates of the frame at `fs` (R171). The samples `S` are those of
the command's start. -/
def State.putFrame (s : State) (S : Samples) (fs : Nat) : State :=
  s.setFrame (fun f => (decodeField s.cfg S fs f).value) (fun f => (decodeField s.cfg S fs f).score)
    (fun f => (decodeField s.cfg S fs f).worst) (fun f => (decodeField s.cfg S fs f).fail)
    (frameTotal s.cfg S fs) (frameWorst s.cfg S fs)

/-- `DECFIELD start, f` (R162). -/
def execDecfield (f start : Nat) (s : State) : Host.Outcome State Fault Refusal :=
  finish s do
    let g ← fieldOperand f
    let fs ← frameOperand s.cfg start
    pure (s.putField g (decodeField s.cfg s.samples fs g))

/-- `DECFRAME start` (R171). -/
def execDecframe (start : Nat) (s : State) : Host.Outcome State Fault Refusal :=
  finish s do
    let fs ← frameOperand s.cfg start
    pure (s.putFrame s.samples fs)

/-- `DECODE` (R175): the frame search, then the decode of the frame at the offset it found, committed together (R42). It
raises nothing. -/
def execDecode (s : State) : Host.Outcome State Fault Refusal :=
  let S := s.samples
  let r := findFrame s.cfg S
  .next ((s.setSync r.1 r.2).putFrame S r.1).complete

end Sys2Proof.Machine
end

