-- ==== Sys2Proof/Machine/Dispatch.lean ====
section
/-! DEFINITION. One arm for each operation of the opcode map (R95). -/

namespace Sys2Proof.Machine

def exec (i : Instr) (s : State) : Host.Outcome State Fault Refusal :=
  match i with
  | .score sym start => Sys2Proof.Machine.execScore sym start s
  | .classify start => Sys2Proof.Machine.execClassify start s
  | .findframe => Sys2Proof.Machine.execFindframe s
  | .decfield f start => Sys2Proof.Machine.execDecfield f start s
  | .decframe start => Sys2Proof.Machine.execDecframe start s
  | .decode => Sys2Proof.Machine.execDecode s

end Sys2Proof.Machine
end

