-- ==== Sys2Proof/Machine/Engine.lean ====
section
/-! DEFINITION. The turns of the two agents (R12, R240): the engine's operation, indivisible, and the host's bus access or
reset edge. -/

namespace Sys2Proof.Machine

/-- The engine's turn (R91): the operation of the accepted word, or ILLEGAL when no row of the opcode map matches it (R202);
while idle the engine waits for a command and nothing changes (R230). -/
def engineTurn (s : State) : Host.Outcome State Fault Refusal :=
  match s.running with
  | none => .next s
  | some w =>
    match decode w with
    | .ok i => exec i s
    | .error _ => .next (s.raise .illegal)

/-- One turn of the sequence of host actions and operations (R240). -/
def takeTurn (t : Turn) (s : State) : Host.Outcome State Fault Refusal :=
  match t with
  | .write addr size data => ifAligned addr size (s.busWrite addr data)
  | .read addr size => ifAligned addr size (s.busRead addr)
  | .rst => .next s.rstEdge
  | .engine => engineTurn s

/-- The turn that comes next: the oldest one scheduled; when the host has none left, the engine's (R42: "Every operation
completes after finitely many clock cycles"). DESIGN CHOICE: log 7. -/
def nextTurn (s : State) : Host.Outcome State Fault Refusal :=
  match s.schedule with
  | [] => engineTurn s
  | t :: ts => takeTurn t { s with schedule := ts }

/-- The state in which word `w` is the accepted command and the engine has the next turn. -/
def State.fetched (s : State) (w : Word) : State := { s.accept w with schedule := .engine :: s.schedule }

end Sys2Proof.Machine
end

