-- ==== Sys2Proof/Machine/Step.lean ====
section
/-! DEFINITION. One step of the machine, and how an instruction is placed so that the next step runs it. -/

namespace Sys2Proof.Machine

/-- One step: one turn of the run (R240). "A `Cfg` that breaks a constraint is refused: the model gives it no meaning"
(R6). -/
def step (s : State) : Host.Outcome State Fault Refusal :=
  if s.cfg.valid then nextTurn s else .refused .invalidCfg

/-- `s` with the table's word `w` accepted as the command (R23) and the engine's turn next. The block fetches nothing (R40);
a command comes from the host's write to `CMD`, and this is the state right after that write (DESIGN CHOICE, safe: log 6). -/
def State.withFetchWord (s : State) (nbits w : Nat) : State := s.fetched (wordOfTable nbits w)

end Sys2Proof.Machine
end

