-- ==== Sys2Proof/Machine/Assembler.lean ====
section
/-! DEFINITION. The textual form of a command (R99): one line to the word it stands for, and the line of an instruction.
A line is a list of characters. The small points R99 leaves open are a DESIGN CHOICE, safe: log 17. -/

namespace Sys2Proof.Machine

/-- What one line stands for. -/
inductive AsmLine where
  /-- Nothing but spaces and a comment. -/
  | blank
  | word (w : Word)
  /-- "the assembler rejects the line" (R99). -/
  | rejected
deriving DecidableEq, Repr

def isSpace (ch : Char) : Bool := ch == ' ' || ch == '\t'

/-- The line without the spaces at its two ends. -/
def trimmed (l : List Char) : List Char := ((l.dropWhile isSpace).reverse.dropWhile isSpace).reverse

/-- "`;` starts a comment" (R99). -/
def withoutComment (l : List Char) : List Char := trimmed (l.takeWhile (· != ';'))

/-- "operands separated by commas" (R99). -/
def splitCommas : List Char → List (List Char)
  | [] => [[]]
  | ch :: rest =>
    match splitCommas rest with
    | [] => [[ch]]
    | piece :: pieces => bif ch == ',' then [] :: piece :: pieces else (ch :: piece) :: pieces

/-- The value of a decimal or hexadecimal digit. -/
def digitValue? (ch : Char) : Option Nat :=
  if '0' ≤ ch ∧ ch ≤ '9' then some (ch.toNat - '0'.toNat)
  else if 'a' ≤ ch ∧ ch ≤ 'f' then some (ch.toNat - 'a'.toNat + 10)
  else if 'A' ≤ ch ∧ ch ≤ 'F' then some (ch.toNat - 'A'.toNat + 10)
  else none

/-- The number the digits stand for in a base, after the value of the digits before them. -/
def digitsValue? (base : Nat) : List Char → Nat → Option Nat
  | [], acc => some acc
  | ch :: rest, acc =>
    match digitValue? ch with
    | none => none
    | some d => if d < base then digitsValue? base rest (acc * base + d) else none

/-- "numbers decimal or `0x` hexadecimal" (R99). -/
def numberOf? : List Char → Option Nat
  | '0' :: 'x' :: d :: ds => digitsValue? 16 (d :: ds) 0
  | d :: ds => digitsValue? 10 (d :: ds) 0
  | [] => none

/-- SYM: "one of `ZERO`, `ONE`, `MARKER` (or a number 0..3)" (R99). -/
def symOf? (l : List Char) : Option Nat :=
  if l = "ZERO".toList then some 0
  else if l = "ONE".toList then some 1
  else if l = "MARKER".toList then some 2
  else (numberOf? l).filter symFits

/-- FIELD: "one of `HOURS`, `MINUTES`, `DOY`, `YEAR`, `LYI`, `LSW`, `DST` (or a number 0..7)" (R99). -/
def fieldNameOf? (l : List Char) : Option Nat :=
  if l = "HOURS".toList then some 0
  else if l = "MINUTES".toList then some 1
  else if l = "DOY".toList then some 2
  else if l = "YEAR".toList then some 3
  else if l = "LYI".toList then some 4
  else if l = "LSW".toList then some 5
  else if l = "DST".toList then some 6
  else (numberOf? l).filter fieldFits

/-- "`start` must be in 0 .. 2^24 − 1 or the assembler rejects the line" (R99). -/
def startOf? (l : List Char) : Option Nat := (numberOf? l).filter startFits

/-- `.word value`: "the 32-bit value as given" (R99). -/
def wordOf? (l : List Char) : Option Word :=
  match numberOf? l with
  | some v => if v < 2 ^ 32 then some (BitVec.ofNat 32 v) else none
  | none => none

/-- A word, or a rejected line. -/
def wordOrReject : Option Word → AsmLine
  | some w => .word w
  | none => .rejected

/-- The word of a mnemonic and its operands (R99): a base word, `sym` or `f` shifted to bit 24, and `start`. -/
def assembleParts (mnemonic : List Char) (ops : List (List Char)) : Option Word :=
  match ops with
  | [[]] =>
    if mnemonic = "FINDFRAME".toList then some (encode .findframe)
    else if mnemonic = "DECODE".toList then some (encode .decode)
    else none
  | [a] =>
    if mnemonic = "CLASSIFY".toList then (startOf? a).map (fun st => encode (.classify st))
    else if mnemonic = "DECFRAME".toList then (startOf? a).map (fun st => encode (.decframe st))
    else if mnemonic = ".word".toList then wordOf? a
    else none
  | [a, b] =>
    if mnemonic = "SCORE".toList then
      (startOf? a).bind fun st => (symOf? b).map fun sym => encode (.score sym st)
    else if mnemonic = "DECFIELD".toList then
      (startOf? a).bind fun st => (fieldNameOf? b).map fun f => encode (.decfield f st)
    else none
  | _ => none

/-- One line of a test program (R99): "One command per line". -/
def assemble (line : List Char) : AsmLine :=
  match withoutComment line with
  | [] => .blank
  | l =>
    wordOrReject (assembleParts (l.takeWhile (fun ch => !isSpace ch))
      ((splitCommas (l.dropWhile (fun ch => !isSpace ch))).map trimmed))

/-- A hexadecimal digit. -/
def hexDigit (d : Nat) : Char :=
  if d < 10 then Char.ofNat ('0'.toNat + d) else Char.ofNat ('A'.toNat + (d - 10))

/-- The low `k` hexadecimal digits of `v`. -/
def hexDigits : Nat → Nat → List Char
  | 0, _ => []
  | k + 1, v => hexDigits k (v / 16) ++ [hexDigit (v % 16)]

/-- A sample index as the line writes it. -/
def renderStart (start : Nat) : List Char := "0x".toList ++ hexDigits 6 start

/-- The name of a symbol code, or its number (R99). -/
def renderSym : Nat → List Char
  | 0 => "ZERO".toList
  | 1 => "ONE".toList
  | 2 => "MARKER".toList
  | n => [hexDigit (n % 16)]

/-- The name of a field index, or its number (R99). -/
def renderField : Nat → List Char
  | 0 => "HOURS".toList
  | 1 => "MINUTES".toList
  | 2 => "DOY".toList
  | 3 => "YEAR".toList
  | 4 => "LYI".toList
  | 5 => "LSW".toList
  | 6 => "DST".toList
  | n => [hexDigit (n % 16)]

/-- The line of an instruction (R99). -/
def render : Instr → List Char
  | .score sym start => "SCORE ".toList ++ renderStart start ++ ", ".toList ++ renderSym sym
  | .classify start => "CLASSIFY ".toList ++ renderStart start
  | .findframe => "FINDFRAME".toList
  | .decfield f start => "DECFIELD ".toList ++ renderStart start ++ ", ".toList ++ renderField f
  | .decframe start => "DECFRAME ".toList ++ renderStart start
  | .decode => "DECODE".toList

end Sys2Proof.Machine
end

