-- ==== Sys2Proof/Machine/HostFunctions.lean ====
section
/-! DEFINITION. The host-side reference functions: the Calendar Converter (R190 – R192) and the Reliability Classifier
(R195), and what a host computes with them from the result registers. They are no commands of the block (R4(b)). -/

namespace Sys2Proof.Machine

/-- CUM, the cumulative day table of a non-leap year (R190). -/
def cumDays : List Nat := [31, 59, 90, 120, 151, 181, 212, 243, 273, 304, 334, 365]

/-- CUMLEAP: every entry "from index 1 onward" is "incremented by 1" (R190). -/
def cumDaysLeap : List Nat := [31, 60, 91, 121, 152, 182, 213, 244, 274, 305, 335, 366]

/-- The outcome of a conversion (R191). -/
inductive CalendarResult where
  | invalidInput
  | date (month day : Nat)
deriving DecidableEq, Repr

/-- T of R191. -/
def dayTable (isLeapYear : Bool) : List Nat := bif isLeapYear then cumDaysLeap else cumDays

/-- `last` of R191. -/
def lastDay (isLeapYear : Bool) : Nat := bif isLeapYear then 366 else 365

/-- `dayOfYearToMonthDay(dayNumber, isLeapYear)` (R191), with the guard of R192. -/
def dayOfYearToMonthDay (dayNumber : Nat) (isLeapYear : Bool) : CalendarResult :=
  if dayNumber < 1 ∨ lastDay isLeapYear < dayNumber then .invalidInput
  else
    let m := (dayTable isLeapYear).findIdx (fun t => decide (dayNumber ≤ t))
    .date (m + 1) (if m = 0 then dayNumber else dayNumber - (dayTable isLeapYear).getD (m - 1) 0)

/-- The tiers of R195. -/
inductive Tier where
  | likelyOk
  | notReliable
  | probablyBad
deriving DecidableEq, Repr

/-- `reliability(w)` (R195), with the thresholds of the configuration (R6). -/
def reliability (c : Cfg) (w : Nat) : Tier :=
  if w < c.tierOkLt then .likelyOk else if w < c.tierNrLt then .notReliable else .probablyBad

/-- The tier of the last decoded frame: its worst-position score is `A_WORST` (R195). -/
def State.tier (s : State) : Tier := reliability s.cfg s.aWorst.toNat

/-- The date of the last decoded frame, from DOY and LYI; "A failed DOY or LYI field (`F_FAIL` bit 2 or 4 set) has no
meaningful value and must not be converted" (R192), so there is then no date at all.
The leap flag is a nonzero LYI value: DEDUCED, unsafe: log 16. -/
def State.date? (s : State) : Option CalendarResult :=
  if s.fFail.getLsbD 2 ∨ s.fFail.getLsbD 4 then none
  else some (dayOfYearToMonthDay s.fValue[FieldIx.doy].toNat (decide (s.fValue[FieldIx.lyi].toNat ≠ 0)))

end Sys2Proof.Machine
end

