-- ==== Sys2Proof/Machine/ReferenceSearch.lean ====
section
/-! DEFINITION. The freedom the spec leaves an implementation of the frame search: the procedure of R145 with the pruning on,
off or on "≥" (R146), with any initial best (R147), with its count of `score` evaluations (R251), and the evaluation of the
candidates in any order with a merge (R149). No operation calls these; statements compare them with `findFrame`. -/

namespace Sys2Proof.Machine

/-- When a candidate is abandoned (R146: "may prune, prune later, or not prune at all"): a test of the candidate's offset,
how many entries of FIXMAP are left, the running best and the partial sum. -/
abbrev Prune := Nat → Nat → Nat → Nat → Bool

/-- No pruning. -/
def Prune.never : Prune := fun _ _ _ _ => false

/-- `partial > best`, as in R145. -/
def Prune.exceeds : Prune := fun _ _ best total => Nat.blt best total

/-- `partial ≥ best`: "an implementation that abandons on `≥` is equally correct" (R146). -/
def Prune.reaches : Prune := fun _ _ best total => Nat.ble best total

/-- A test that never abandons a candidate whose partial sum is still below the running best: those R146 allows. -/
def Prune.allowed (p : Prune) : Prop := ∀ c0 left best total, p c0 left best total = true → best ≤ total

/-- The test of the inner `break` (R145); with no best yet nothing is abandoned. -/
def Prune.abandons (p : Prune) (c0 left : Nat) (best : Option Nat) (total : Nat) : Bool :=
  match best with
  | none => false
  | some b => p c0 left b total

/-- The inner loop of R145 for the candidate `c0`: its total, or `none` when abandoned, and how many `score` evaluations
were made in all, `evals` of them before. -/
def refCandidate (p : Prune) (c : Cfg) (S : Samples) (best : Option Nat) (c0 : Nat) :
    List FixedPos → Nat → Nat → Option Nat × Nat
  | [], total, evals => (some total, evals)
  | e :: es, total, evals =>
    bif p.abandons c0 es.length best (total + entryScore c S c0 e) then (none, evals + 1)
    else refCandidate p c S best c0 es (total + entryScore c S c0 e) (evals + 1)

/-- The working values of R145 (R41), and the count of `score` evaluations (R251). -/
structure RefSearch where
  best : Option Nat
  bestoff : Option Nat
  evals : Nat
deriving DecidableEq, Repr

/-- A completed candidate replaces the running best when there is none or its total is strictly smaller (R145). -/
def RefSearch.offer (r : RefSearch) (c0 : Nat) (total : Option Nat) : RefSearch :=
  match total, r.best with
  | none, _ => r
  | some t, none => { r with best := some t, bestoff := some c0 }
  | some t, some b => bif Nat.blt t b then { r with best := some t, bestoff := some c0 } else r

/-- One round of the outer loop of R145. -/
def refRound (p : Prune) (c : Cfg) (S : Samples) (r : RefSearch) (c0 : Nat) : RefSearch :=
  let t := refCandidate p c S r.best c0 c.fixmap 0 r.evals
  { r with evals := t.2 }.offer c0 t.1

/-- The procedure of R145 over the candidates 0 .. LASTCAND, from the initial best `init` (R147: `none`, or any value
greater than 18 × SPS). -/
def refSearch (p : Prune) (init : Option Nat) (c : Cfg) (S : Samples) : RefSearch :=
  (List.range (c.lastCand + 1)).foldl (refRound p c S) ⟨init, none, 0⟩

/-- Merging two partial results (offset, total): the smaller total, and "this exact tie-break", the lower offset (R149). -/
def mergeBest (a b : Nat × Nat) : Nat × Nat :=
  if b.2 < a.2 ∨ (b.2 = a.2 ∧ b.1 < a.1) then b else a

/-- The candidates evaluated in the order of a list and merged (R149). -/
def searchInOrder (c : Cfg) (S : Samples) : List Nat → Option (Nat × Nat)
  | [] => none
  | c0 :: cs =>
    match searchInOrder c S cs with
    | none => some (c0, syncTotal c S c0)
    | some b => some (mergeBest (c0, syncTotal c S c0) b)

end Sys2Proof.Machine
end

