-- ==== Sys2Proof/Safety.lean ====
section
/-! DEFINITION. The terms that claims about the machine use: which registers an operation writes (R38), which cells its
result depends on (R73), which turns have a meaning (R62), and the invariant of a run. -/

namespace Sys2Proof.Machine

/-- The result registers an operation writes when it completes without error (R38). DECFIELD writes only bit `f` of
`F_FAIL`. -/
def writesResult (i : Instr) (k : RegName) : Bool :=
  match i, k with
  | .score _ _, .rSym => true
  | .score _ _, .rScore => true
  | .classify _, .rSym => true
  | .classify _, .rScore => true
  | .findframe, .rOffset => true
  | .findframe, .rSyncerr => true
  | .decfield f _, .fValue g => f == g.val
  | .decfield f _, .fScore g => f == g.val
  | .decfield f _, .fWorst g => f == g.val
  | .decfield _ _, .fFail => true
  | .decframe _, .fValue _ => true
  | .decframe _, .fScore _ => true
  | .decframe _, .fWorst _ => true
  | .decframe _, .fFail => true
  | .decframe _, .aScore => true
  | .decframe _, .aWorst => true
  | .decode, .rOffset => true
  | .decode, .rSyncerr => true
  | .decode, .fValue _ => true
  | .decode, .fScore _ => true
  | .decode, .fWorst _ => true
  | .decode, .fFail => true
  | .decode, .aScore => true
  | .decode, .aWorst => true
  | _, _ => false

/-- Cell `k` lies in the one-second span at `st` (R68). -/
def inSpan (c : Cfg) (st k : Nat) : Prop := st ≤ k ∧ k < st + c.sps

/-- Cell `k` lies in a span of a FIXMAP position for the candidate `c0` (R73, row FINDFRAME). -/
def inFixedSpans (c : Cfg) (c0 k : Nat) : Prop := ∃ e ∈ c.fixmap, inSpan c (spanStart c c0 e.pos) k

/-- Cell `k` lies in a span of a position of field `f` of the frame at `fs` (R73, row DECFIELD). -/
def inFieldSpans (c : Cfg) (fs : Nat) (f : FieldIx) (k : Nat) : Prop :=
  ∃ e ∈ c.field[f], inSpan c (spanStart c fs e.pos) k

/-- The cells the result of an operation depends on (R73); `off` is the offset DECODE's own search finds. -/
def dependsOnCell (c : Cfg) (off : Nat) (i : Instr) (k : Nat) : Prop :=
  match i with
  | .score _ start => inSpan c start k
  | .classify start => inSpan c start k
  | .findframe => ∃ c0, c0 ≤ c.lastCand ∧ inFixedSpans c c0 k
  | .decfield f start => ∃ g : FieldIx, g.val = f ∧ inFieldSpans c start g k
  | .decframe start => ∃ g : FieldIx, inFieldSpans c start g k
  | .decode => (∃ c0, c0 ≤ c.lastCand ∧ inFixedSpans c c0 k) ∨ ∃ g : FieldIx, inFieldSpans c off g k

/-- A turn with a meaning: a bus access is one aligned word (R62). -/
def Turn.meaningful : Turn → Bool
  | .write addr size _ => alignedWord addr size
  | .read addr size => alignedWord addr size
  | .rst => true
  | .engine => true

/-- The bus write of sample `b` to cell `i` (R70). -/
def writeCell (i : Nat) (b : Sample) : Turn := .write (BitVec.ofNat 27 (sampleBase + 4 * i)) 4 (BitVec.ofNat 32 b.toNat)

/-- The bus write that issues command word `w` (R23). -/
def issue (w : Word) : Turn := .write 0 4 w

/-- The bus read of register number `r` (R61). -/
def readRegister (r : Nat) : Turn := .read (BitVec.ofNat 27 (4 * r)) 4

/-- The host writes a capture, in order, to cells `i`, `i + 1`, … (R72: "byte k of the file … to sample cell k"). -/
def loadFrom : Nat → List Sample → List Turn
  | _, [] => []
  | i, b :: bs => writeCell i b :: loadFrom (i + 1) bs

/-- The number of 1 samples among the `len` cells from `lo` (R122, R124(c)). -/
def onesIn (s : State) (lo len : Nat) : Nat := (List.range len).countP fun i => s.sample (lo + i)

/-- The number of 0 samples among the `len` cells from `lo` (R122). -/
def zerosIn (s : State) (lo len : Nat) : Nat := (List.range len).countP fun i => !s.sample (lo + i)

/-- The span at `st` equals the template of `y` (R124(d), R151(c)). -/
def spanIs (s : State) (st : Nat) (y : Symbol) : Prop := ∀ i, i < s.cfg.sps → s.sample (st + i) = tmpl s.cfg y i

/-- What an operation leaves as it was: every register but STATUS and those R38 lists for it (none of them when it raises an
error), the bits of `F_FAIL` a DECFIELD does not own, OVR, every sample, the configuration, and the model's own
bookkeeping; ANYERR changes only with an error. -/
structure KeepsTheRest (i : Instr) (s t : State) : Prop where
  registers : ∀ k : RegName, k ≠ .status → writesResult i k = false ∨ t.err ≠ .noError → t.regValue k = s.regValue k
  failBits : ∀ (f start : Nat) (g : FieldIx), i = .decfield f start → g.val ≠ f →
    t.fFail.getLsbD g = s.fFail.getLsbD g
  samples : ∀ a, t.sample a = s.sample a
  cfg : t.cfg = s.cfg
  ovr : t.ovr = s.ovr
  anyErr : t.anyErr = (s.anyErr || decide (t.err ≠ .noError))
  schedule : t.schedule = s.schedule
  rdata : t.rdata = s.rdata
  freeReads : t.freeReads = s.freeReads

/-- What the registers of field `f` hold, after reset or after any decode (R29 – R32, R45, R168(b)(c)). -/
def FieldRegsOk (s : State) (f : FieldIx) : Prop :=
  if s.fFail.getLsbD f then
    s.fValue[f].toNat = 0 ∧ s.fScore[f].toNat = s.cfg.failureScore ∧ s.fWorst[f].toNat = s.cfg.sps
  else
    s.fValue[f].toNat ≤ weightSum s.cfg.field[f] ∧ s.fScore[f].toNat ≤ s.cfg.field[f].length * s.fWorst[f].toNat ∧
      s.fWorst[f].toNat ≤ s.fScore[f].toNat ∧ s.fWorst[f].toNat ≤ 7 * s.cfg.sps / 10

/-- The invariant of a run: what holds after reset and is kept by every step. -/
structure Inv (s : State) : Prop where
  /-- R6. -/
  cfgValid : s.cfg.valid = true
  /-- The sample space keeps its canonical form. -/
  memWf : s.smp.wf = true
  /-- R60: every cell has an index below N. -/
  memInBounds : s.smp.inBounds s.cfg.n = true
  /-- R24: "`BUSY` and `DONE` are never both 1". -/
  notBusyAndDone : ¬(s.busy = true ∧ s.done = true)
  /-- R24: ERR is set by completion and cleared by acceptance. -/
  errOnlyWhenDone : s.err ≠ .noError → s.done = true
  /-- R24, R207: ANYERR is sticky. -/
  errIsRecorded : s.err ≠ .noError → s.anyErr = true
  /-- R25: "It never holds 3". -/
  symLegal : s.rSym.toNat ≠ 3
  /-- R26. -/
  scoreInRange : s.rScore.toNat ≤ s.cfg.sps
  /-- R27. -/
  offsetInRange : s.rOffset.toNat ≤ s.cfg.lastCand
  /-- R28. -/
  syncerrInRange : s.rSyncerr.toNat ≤ 18 * s.cfg.sps
  /-- R33. -/
  aScoreInRange : s.aScore.toNat ≤ 7 * 65535
  /-- R34. -/
  aWorstInRange : s.aWorst.toNat ≤ s.cfg.sps
  /-- R29 – R32. -/
  fieldsOk : ∀ f : FieldIx, FieldRegsOk s f

end Sys2Proof.Machine
end

