-- ==== Sys2Proof/Certificates/Slice0/Obligations.lean ====
section
/-! DEFINITION. What is claimed of the machine, one statement for each rule or group of rules of the spec.

A statement about what the host does finds the host's access at the head of `schedule` and the answer of a read in `rdata`.
These two, and the counter `freeReads`, are the model's own (notes/assumptions 7, 8, 9); no statement uses the value reset
gives them. That the rest of the schedule is what is left after a step is the model's choice, no rule of the spec. -/

open Sys2Proof Sys2Proof.Machine

/-! ### The command word -/

/-- R90 – R95, R100: encoding and decoding are inverse, for every operation and every operand its fields admit. -/
def Obligations.DecodeEncodeRoundTrip : Prop :=
  (∀ i : Instr, i.wf = true → decode (encode i) = .ok i) ∧
  (∀ (w : Word) (i : Instr), decode w = .ok i → i.wf = true ∧ encode i = w)

/-- R100, at the level of text: assembling the line of the decoded operation gives the word again, and two legal words
never decode alike. -/
def Obligations.AssembledLineIsTheWord : Prop :=
  (∀ (w : Word) (i : Instr), decode w = .ok i → assemble (render i) = .word w) ∧
  (∀ (w v : Word) (i : Instr), decode w = .ok i → decode v = .ok i → w = v)

/-- R91: at most one row of the opcode map matches a word, the matching row is the operation, and every word selects exactly
one operation or is illegal. -/
def Obligations.OneRowMatchesOrWordIsIllegal : Prop :=
  ∀ w : Word,
    (∃ o : Op, o.selects w = true ∧ (∀ p : Op, p.selects w = true → p = o) ∧ decode w = .ok (o.operands w)) ∨
    ((∀ o : Op, o.selects w = false) ∧ ∃ r, decode w = .error r)

/-- R96 (a) – (e): exactly which words are illegal, kind by kind. -/
def Obligations.IllegalWordsByKind : Prop :=
  ∀ w : Word,
    (decode w = .error .noSuchOp ↔ bits w 31 28 = 0 ∨ 7 ≤ bits w 31 28) ∧
    (decode w = .error .scoreSelHigh ↔ bits w 31 28 = 1 ∧ bits w 27 26 ≠ 0) ∧
    (decode w = .error .selNotZero ↔ (bits w 31 28 = 2 ∨ bits w 31 28 = 5) ∧ bits w 27 24 ≠ 0) ∧
    (decode w = .error .fieldSelHigh ↔ bits w 31 28 = 4 ∧ bits w 27 27 = 1) ∧
    (decode w = .error .operandsNotZero ↔ (bits w 31 28 = 3 ∨ bits w 31 28 = 6) ∧ bits w 27 0 ≠ 0)

/-- R96: "SCORE has 2^26 legal words, CLASSIFY 2^24, FINDFRAME 1, DECFIELD 2^27, DECFRAME 2^24, DECODE 1". -/
def Obligations.LegalWordCounts : Prop :=
  {w : Word | ∃ sym start, decode w = .ok (.score sym start)}.ncard = 2 ^ 26 ∧
  {w : Word | ∃ start, decode w = .ok (.classify start)}.ncard = 2 ^ 24 ∧
  {w : Word | decode w = .ok .findframe}.ncard = 1 ∧
  {w : Word | ∃ f start, decode w = .ok (.decfield f start)}.ncard = 2 ^ 27 ∧
  {w : Word | ∃ start, decode w = .ok (.decframe start)}.ncard = 2 ^ 24 ∧
  {w : Word | decode w = .ok .decode}.ncard = 1

/-- Words written out from R95 and R99 decode to the commands they stand for. -/
def Obligations.WrittenOutWordsDecode : Prop :=
  decode 0x12001298#32 = .ok (.score 2 4760) ∧ decode 0x13FFFFFF#32 = .ok (.score 3 0xFFFFFF) ∧
  decode 0x200001C9#32 = .ok (.classify 457) ∧ decode 0x30000000#32 = .ok .findframe ∧
  decode 0x41000089#32 = .ok (.decfield 1 137) ∧ decode 0x47000000#32 = .ok (.decfield 7 0) ∧
  decode 0x50000089#32 = .ok (.decframe 137) ∧ decode 0x60000000#32 = .ok .decode ∧
  decode 0x00000000#32 = .error .noSuchOp ∧ decode 0x30000001#32 = .error .operandsNotZero ∧
  decode 0x28000000#32 = .error .selNotZero

/-! ### A step -/

/-- R91: when the accepted word decodes to `i` and it is the engine's turn, the step is `exec i`; the state after
`withFetchWord` is such a state. How a turn comes and how a word is placed are the model's choice (notes/assumptions 6, 7). -/
def Obligations.StepRunsDecodedInstruction : Prop :=
  (∀ (s : State) (w : Word) (i : Instr), s.cfg.valid = true → s.running = some w → decode w = .ok i →
    (s.schedule = [] → step s = exec i s) ∧
    (∀ ts, s.schedule = .engine :: ts → step s = exec i { s with schedule := ts })) ∧
  (∀ (s : State) (nbits w : Nat) (i : Instr), s.cfg.valid = true → decodeTableWord nbits w = some i →
    step (s.withFetchWord nbits w) = exec i (s.accept (wordOfTable nbits w)))

/-- R202, R206: when the accepted word is illegal and it is the engine's turn, the step raises ILLEGAL and does nothing else;
the state after `withFetchWord` is such a state. How a turn comes and how a word is placed are the model's choice
(notes/assumptions 6, 7). -/
def Obligations.StepOnIllegalWordRaisesIllegal : Prop :=
  (∀ (s : State) (w : Word) (r : IllegalWord), s.cfg.valid = true → s.running = some w → decode w = .error r →
    (s.schedule = [] →
      step s = .next { s with running := none, done := true, err := .illegal, anyErr := true }) ∧
    (∀ ts, s.schedule = .engine :: ts →
      step s = .next { s with running := none, done := true, err := .illegal, anyErr := true, schedule := ts })) ∧
  (∀ (s : State) (nbits w : Nat), s.cfg.valid = true → decodeTableWord nbits w = none →
    step (s.withFetchWord nbits w) = .next { s with running := none, done := true, err := .illegal, anyErr := true })

/-- R6, R62: a step has a meaning exactly when the configuration is valid and a bus access that comes next is one aligned
word; otherwise it is refused by name. Nothing else is ever refused. -/
def Obligations.StepIsRefusedExactlyWhen : Prop :=
  ∀ s : State,
    (s.cfg.valid = false → step s = .refused .invalidCfg) ∧
    (∀ t ts, s.cfg.valid = true → s.schedule = t :: ts → t.meaningful = false → step s = .refused .notAlignedWord) ∧
    (s.cfg.valid = true → (∀ t ts, s.schedule = t :: ts → t.meaningful = true) → ∃ u, step s = .next u)

/-- R46: what the block holds after reset, read as the bus reads it; a sample cell holds an unspecified bit. -/
def Obligations.ResetStateReadsAsSpecified : Prop :=
  ∀ c : Cfg, c.valid = true →
    let s := State.resetOf c
    s.statusWord = 0 ∧
    (∀ k : RegName, k ≠ .cfgSps → k ≠ .cfgN → k ≠ .cfgFailscore → s.regValue k = 0) ∧
    (s.regValue .cfgSps).toNat = c.sps ∧ (s.regValue .cfgN).toNat = c.n ∧
    (s.regValue .cfgFailscore).toNat = c.failureScore ∧
    (∀ i, s.sample i = Config.freeSample i)

/-- R230: a reset edge makes every register 0 but the `CFG_*` constants, leaves the engine idle, abandons a running operation
without writing a result, and does not change the sample space. That a cell never written keeps
its unspecified bit is the model's reading (notes/assumptions 4). -/
def Obligations.ResetEdgeClearsAllButSamples : Prop :=
  ∀ (s : State) (ts : List Turn), s.cfg.valid = true → s.schedule = .rst :: ts →
    ∃ t, step s = .next t ∧ t.busy = false ∧ t.statusWord = 0 ∧ t.cfg = s.cfg ∧
      (∀ k : RegName, k ≠ .cfgSps → k ≠ .cfgN → k ≠ .cfgFailscore → t.regValue k = 0) ∧
      (∀ k : RegName, k = .cfgSps ∨ k = .cfgN ∨ k = .cfgFailscore → t.regValue k = s.regValue k) ∧
      (∀ i, t.sample i = s.sample i) ∧ t.schedule = ts

/-- The invariant holds after reset, for every valid configuration. -/
def Obligations.ResetStateMeetsTheRunInvariant : Prop := ∀ c : Cfg, c.valid = true → Inv (State.resetOf c)

/-- Every step keeps the invariant: the sample space keeps its canonical form within 0 .. N−1, BUSY and DONE are never both
1, an error is recorded, and every result register stays in the range the spec gives it. -/
def Obligations.StepKeepsTheRunInvariant : Prop := ∀ s t : State, Inv s → step s = .next t → Inv t

/-- R11, R35: no step changes the configuration, tables included. -/
def Obligations.ConfigurationNeverChanges : Prop := ∀ s t : State, step s = .next t → t.cfg = s.cfg

/-- R77: from the acceptance of a command to its completion no sample changes, whatever the host does: a host write of a
sample is dropped. The first clause also covers a reset edge while busy (R230); that a cell never written keeps its
unspecified bit over that edge is the model's reading, no rule of the spec (notes/assumptions 4). -/
def Obligations.SamplesDoNotChangeWhileBusy : Prop :=
  (∀ s t : State, s.busy = true → step s = .next t → ∀ a, t.sample a = s.sample a) ∧
  (∀ (s : State) (i : Nat) (d : Word) (ts : List Turn), s.cfg.valid = true → s.busy = true → i < s.cfg.n →
    s.schedule = .write (BitVec.ofNat 27 (0x4000000 + 4 * i)) 4 d :: ts → ∃ t, step s = .next t ∧ t.smp = s.smp)

/-- R42, R150: every operation completes: after the turns the host still has, and one of the engine, BUSY is 0. That the
engine has its turn when the host has none left is the model's choice (notes/assumptions 7). -/
def Obligations.BusyAlwaysEnds : Prop :=
  ∀ s : State, s.cfg.valid = true → s.schedule.all Turn.meaningful = true →
    ∃ t, Sys2Proof.core.run (s.schedule.length + 1) s = .next t ∧ t.busy = false ∧ t.schedule = []

/-! ### The Symbol Matcher -/

/-- R121: the template, and the table of SPS = 40: the symbols' codes, their LOWLEN and the three templates. -/
def Obligations.TemplatesAreLowThenHigh : Prop :=
  (∀ (c : Cfg) (y : Symbol) (i : Nat), (i < c.lowLen y → tmpl c y i = false) ∧ (c.lowLen y ≤ i → tmpl c y i = true)) ∧
  [symCode .zero, symCode .one, symCode .marker] = [0, 1, 2] ∧
  (∀ c : Cfg, c.sps = 40 →
    [c.lowLen .zero, c.lowLen .one, c.lowLen .marker] = [8, 20, 32] ∧
    (List.range 40).map (tmpl c .zero) = List.replicate 8 false ++ List.replicate 32 true ∧
    (List.range 40).map (tmpl c .one) = List.replicate 20 false ++ List.replicate 20 true ∧
    (List.range 40).map (tmpl c .marker) = List.replicate 32 false ++ List.replicate 8 true)

/-- R122: the score is the number of samples that disagree with the template, and equally the number of 1s in the low phase
plus the number of 0s in the high phase. -/
def Obligations.ScoreCountsDisagreements : Prop :=
  ∀ (s : State) (st : Nat) (y : Symbol), s.cfg.valid = true → st + s.cfg.sps ≤ s.cfg.n →
    score s.cfg s.samples st y =
      ((Finset.range s.cfg.sps).filter fun i => s.sample (st + i) ≠ tmpl s.cfg y i).card ∧
    score s.cfg s.samples st y =
      onesIn s st (s.cfg.lowLen y) + zerosIn s (st + s.cfg.lowLen y) (s.cfg.sps - s.cfg.lowLen y)

/-- R124: the laws (a) – (d) of `score`. -/
def Obligations.ScoreLawsOfR124 : Prop :=
  ∀ (s : State) (st : Nat) (y : Symbol), s.cfg.valid = true →
    let sc := fun z => score s.cfg s.samples st z
    -- (a)
    (sc y ≤ s.cfg.sps ∧ (sc y = 0 ↔ spanIs s st y) ∧
      (sc y = s.cfg.sps ↔ ∀ i, i < s.cfg.sps → s.sample (st + i) ≠ tmpl s.cfg y i)) ∧
    -- (b)
    (∀ k, k < s.cfg.sps →
      let t : State := { s with smp := s.smp.write (st + k) (!s.sample (st + k)) }
      (t.sample (st + k) ≠ tmpl s.cfg y k → score t.cfg t.samples st y = sc y + 1) ∧
      (t.sample (st + k) = tmpl s.cfg y k → score t.cfg t.samples st y + 1 = sc y)) ∧
    -- (c)
    (let e := s.cfg.sps / 5
     let q := 3 * s.cfg.sps / 10
     let a := onesIn s st e
     let b := onesIn s (st + s.cfg.sps / 5) q
     let c := onesIn s (st + s.cfg.sps / 2) q
     let d := onesIn s (st + 4 * s.cfg.sps / 5) e
     a ≤ e ∧ b ≤ q ∧ c ≤ q ∧ d ≤ e ∧
     sc .zero = a + (q - b) + (q - c) + (e - d) ∧ sc .one = a + b + (q - c) + (e - d) ∧
       sc .marker = a + b + c + (e - d)) ∧
    -- (d)
    (∀ x, spanIs s st x → sc y = (s.cfg.lowLen x - s.cfg.lowLen y) + (s.cfg.lowLen y - s.cfg.lowLen x)) ∧
    (s.cfg.sps = 40 →
      s.cfg.lowLen .one - s.cfg.lowLen .zero = 12 ∧ s.cfg.lowLen .marker - s.cfg.lowLen .one = 12 ∧
        s.cfg.lowLen .marker - s.cfg.lowLen .zero = 24)

/-- R123: SCORE, its result, its two errors and their order, and its example. -/
def Obligations.ScoreOperation : Prop :=
  (∀ (s : State) (y : Symbol) (start : Nat), s.cfg.valid = true → start + s.cfg.sps ≤ s.cfg.n →
    ∃ t, exec (.score (symCode y) start) s = .next t ∧
      t.rSym.toNat = symCode y ∧ t.rScore.toNat = score s.cfg s.samples start y ∧
      t = { s with rSym := t.rSym, rScore := t.rScore, running := none, done := true, err := .noError }) ∧
  (∀ (s : State) (start : Nat),
    exec (.score 3 start) s = .next { s with running := none, done := true, err := .operand, anyErr := true }) ∧
  (∀ (s : State) (y : Symbol) (start : Nat), s.cfg.n < start + s.cfg.sps →
    exec (.score (symCode y) start) s =
      .next { s with running := none, done := true, err := .bounds, anyErr := true }) ∧
  decode 0x10000000#32 = .ok (.score 0 0) ∧
  (∀ s : State, s.cfg = Cfg.wce1 → (∀ i, i < 40 → s.sample i = false) →
    ∃ t, exec (.score 0 0) s = .next t ∧ t.rSym.toNat = 0 ∧ t.rScore.toNat = 32)

/-- R125, R127: the returned score is the least of the three, and the symbol is the first in the order ONE, ZERO, MARKER
that reaches it; the four rows of the tie table. -/
def Obligations.ClassifyIsLeastWithFixedTieBreak : Prop :=
  ∀ (c : Cfg) (S : Samples) (st : Nat),
    let z := score c S st .zero
    let o := score c S st .one
    let m := score c S st .marker
    let r := classify c S st
    r.2 = min o (min z m) ∧ r.2 = score c S st r.1 ∧
    (r.1 = .one ↔ o ≤ z ∧ o ≤ m) ∧ (r.1 = .zero ↔ z < o ∧ z ≤ m) ∧ (r.1 = .marker ↔ m < o ∧ m < z) ∧
    (o = z → z < m → r.1 = .one) ∧ (o = m → m < z → r.1 = .one) ∧ (z = m → m < o → r.1 = .zero) ∧
    (o = z → z = m → r.1 = .one)

/-- R128: the laws (a) – (c) of `classify`, with the correction of 90_conflicts.md C1. -/
def Obligations.ClassifyLawsOfR128 : Prop :=
  ∀ (s : State) (st : Nat), s.cfg.valid = true →
    let sc := fun z => score s.cfg s.samples st z
    let r := classify s.cfg s.samples st
    -- (a)
    r.2 ≤ 7 * s.cfg.sps / 10 ∧
    (let e := s.cfg.sps / 5
     let q := 3 * s.cfg.sps / 10
     let b := onesIn s (st + s.cfg.sps / 5) q
     let c := onesIn s (st + s.cfg.sps / 2) q
     onesIn s st e = e → onesIn s (st + 4 * s.cfg.sps / 5) e = 0 → b + c = q → c ≤ b → r.2 = 7 * s.cfg.sps / 10) ∧
    ((∀ i, i < s.cfg.sps → s.sample (st + i) = !tmpl s.cfg .one i) →
      sc .zero = 7 * s.cfg.sps / 10 ∧ sc .marker = 7 * s.cfg.sps / 10 ∧ sc .one = s.cfg.sps ∧
        r = (.zero, 7 * s.cfg.sps / 10)) ∧
    -- (b)
    (∀ y, spanIs s st y → r = (y, 0)) ∧
    -- (c)
    ((∀ i, i < s.cfg.sps → s.sample (st + i) = false) →
      sc .zero = 4 * s.cfg.sps / 5 ∧ sc .one = s.cfg.sps / 2 ∧ sc .marker = s.cfg.sps / 5 ∧
        r = (.marker, s.cfg.sps / 5)) ∧
    ((∀ i, i < s.cfg.sps → s.sample (st + i) = true) →
      sc .zero = s.cfg.sps / 5 ∧ sc .one = s.cfg.sps / 2 ∧ sc .marker = 4 * s.cfg.sps / 5 ∧
        r = (.zero, s.cfg.sps / 5))

/-- R126: CLASSIFY, its result and its range, its error, and its example. -/
def Obligations.ClassifyOperation : Prop :=
  (∀ (s : State) (start : Nat), s.cfg.valid = true → start + s.cfg.sps ≤ s.cfg.n →
    ∃ t, exec (.classify start) s = .next t ∧
      t.rSym.toNat = symCode (classify s.cfg s.samples start).1 ∧
      t.rScore.toNat = (classify s.cfg s.samples start).2 ∧
      t.rSym.toNat ≠ 3 ∧ t.rScore.toNat ≤ 7 * s.cfg.sps / 10 ∧
      t = { s with rSym := t.rSym, rScore := t.rScore, running := none, done := true, err := .noError }) ∧
  (∀ (s : State) (start : Nat), s.cfg.n < start + s.cfg.sps →
    exec (.classify start) s = .next { s with running := none, done := true, err := .bounds, anyErr := true }) ∧
  decode 0x20000000#32 = .ok (.classify 0) ∧
  (∀ s : State, s.cfg = Cfg.wce1 → (∀ i, i < 40 → s.sample i = decide (14 ≤ i)) →
    score s.cfg s.samples 0 .zero = 6 ∧ score s.cfg s.samples 0 .one = 6 ∧ score s.cfg s.samples 0 .marker = 18 ∧
    ∃ t, exec (.classify 0) s = .next t ∧ t.rSym.toNat = 1 ∧ t.rScore.toNat = 6)

/-! ### The Frame Synchronizer -/

/-- R141: the total of a candidate is the sum of the 18 scores against the expected symbols, every span read lies in the
sample space, and the total is at most 18 × SPS. -/
def Obligations.SyncTotalSumsEighteenScores : Prop :=
  ∀ (c : Cfg) (S : Samples) (c0 : Nat), c.valid = true → c0 ≤ c.lastCand →
    c.fixmap.length = 18 ∧
    syncTotal c S c0 =
      ∑ k ∈ Finset.range 18, (c.fixmap[k]?.elim 0 fun e => score c S (c0 + e.pos * c.sps) e.sym) ∧
    syncTotal c S c0 ≤ 18 * c.sps ∧
    (∀ e ∈ c.fixmap, c0 + e.pos * c.sps + c.sps ≤ c.n)

/-- R142, R143: the result of the search is the least total over the candidates 0 .. LASTCAND, the last included, at the
smallest offset that reaches it. -/
def Obligations.FindFrameIsLeastTotalAtLowestOffset : Prop :=
  ∀ (c : Cfg) (S : Samples),
    let r := findFrame c S
    r.1 ≤ c.lastCand ∧ r.2 = syncTotal c S r.1 ∧
    (∀ c0, c0 ≤ c.lastCand → r.2 ≤ syncTotal c S c0) ∧
    (∀ c0, c0 < r.1 → r.2 < syncTotal c S c0)

/-- R146, R147: with any pruning that abandons no candidate whose partial sum is below the running best (no pruning, later
pruning, pruning on ">" and pruning on "≥" among them), starting with no best or with any best greater than 18 × SPS, the
procedure of R145 returns the pair of R143. -/
def Obligations.PruningDoesNotChangeTheResult : Prop :=
  (Prune.never.allowed ∧ Prune.exceeds.allowed ∧ Prune.reaches.allowed) ∧
  ∀ (p : Prune) (init : Option Nat) (c : Cfg) (S : Samples), p.allowed → c.valid = true →
    (∀ v, init = some v → 18 * c.sps < v) →
    (refSearch p init c S).bestoff = some (findFrame c S).1 ∧ (refSearch p init c S).best = some (findFrame c S).2

/-- R251: a FINDFRAME evaluates `score` at least 18 + LASTCAND times and at most 18 × (LASTCAND + 1) times; without pruning
exactly that often. -/
def Obligations.SearchWorkIsBounded : Prop :=
  ∀ (c : Cfg) (S : Samples), c.valid = true →
    18 + c.lastCand ≤ (refSearch Prune.exceeds none c S).evals ∧
    (refSearch Prune.exceeds none c S).evals ≤ 18 * (c.lastCand + 1) ∧
    (refSearch Prune.never none c S).evals = 18 * (c.lastCand + 1)

/-- R148: neither the order of the 18 entries of FIXMAP nor the order in which the samples of a second are compared can
affect the result. -/
def Obligations.MapAndSampleOrderAreInvisible : Prop :=
  (∀ (c : Cfg) (S : Samples) (l : List FixedPos), c.fixmap.Perm l → findFrame { c with fixmap := l } S = findFrame c S) ∧
  (∀ (c : Cfg) (S : Samples) (st : Nat) (y : Symbol) (l : List Nat), (List.range c.sps).Perm l →
    (l.map fun i => (S.at (st + i) ^^ tmpl c y i).toNat).sum = score c S st y)

/-- R149: whatever the order in which the candidates are evaluated, merging by least total and lowest offset gives the pair
of R143. -/
def Obligations.CandidateOrderIsInvisible : Prop :=
  ∀ (c : Cfg) (S : Samples) (order : List Nat), (List.range (c.lastCand + 1)).Perm order →
    searchInOrder c S order = some (findFrame c S)

/-- R144, R151 (a) (b): FINDFRAME completes from every state and leaves in R_OFFSET and R_SYNCERR the least total and its
lowest offset, the complete 18-term sum; nothing else but STATUS is written. -/
def Obligations.FindframeOperation : Prop :=
  ∀ s : State, s.cfg.valid = true →
    ∃ t, exec .findframe s = .next t ∧
      t.rOffset.toNat ≤ s.cfg.lastCand ∧
      t.rSyncerr.toNat = syncTotal s.cfg s.samples t.rOffset.toNat ∧
      (∀ c0, c0 ≤ s.cfg.lastCand → t.rSyncerr.toNat ≤ syncTotal s.cfg s.samples c0) ∧
      (∀ c0, c0 < t.rOffset.toNat → t.rSyncerr.toNat < syncTotal s.cfg s.samples c0) ∧
      t = { s with rOffset := t.rOffset, rSyncerr := t.rSyncerr, running := none, done := true, err := .noError }

/-- R151 (c) (d): a candidate whose 18 fixed spans are the templates gives total 0 at the lowest such offset, and samples
outside a candidate's 18 spans do not change its total. -/
def Obligations.PerfectCandidateIsFound : Prop :=
  (∀ (s : State) (p : Nat), s.cfg.valid = true → p ≤ s.cfg.lastCand →
    (∀ e ∈ s.cfg.fixmap, spanIs s (spanStart s.cfg p e.pos) e.sym) →
    (findFrame s.cfg s.samples).2 = 0 ∧ (findFrame s.cfg s.samples).1 ≤ p ∧
    (∀ e ∈ s.cfg.fixmap, spanIs s (spanStart s.cfg (findFrame s.cfg s.samples).1 e.pos) e.sym)) ∧
  (∀ (s t : State) (c0 : Nat), t.cfg = s.cfg → (∀ k, inFixedSpans s.cfg c0 k → t.sample k = s.sample k) →
    syncTotal t.cfg t.samples c0 = syncTotal s.cfg s.samples c0)

/-! ### The Field Decoder -/

/-- R163, R164: a field fails exactly when some position classifies as MARKER, and then returns the four fixed outputs; else
the value is the sum of the weights of the ONEs, the score the sum of the scores, the worst their maximum. -/
def Obligations.FieldResultByPositions : Prop :=
  ∀ (c : Cfg) (S : Samples) (fs : Nat) (f : FieldIx),
    let cl := fun e : CodePair => classify c S (fs + e.pos * c.sps)
    let r := decodeField c S fs f
    (r.fail = true ↔ ∃ e ∈ c.field[f], (cl e).1 = .marker) ∧
    (r.fail = true → r.value = 0 ∧ r.score = c.failureScore ∧ r.worst = c.sps) ∧
    (r.fail = false →
      r.value = ((c.field[f].filter fun e => decide ((cl e).1 = .one)).map CodePair.weight).sum ∧
      r.score = (c.field[f].map fun e => (cl e).2).sum ∧
      (∀ e ∈ c.field[f], (cl e).2 ≤ r.worst) ∧ (r.worst = 0 ∨ ∃ e ∈ c.field[f], r.worst = (cl e).2))

/-- R167: the order of the pairs of a code is not observable. -/
def Obligations.CodeOrderIsInvisible : Prop :=
  ∀ (c d : Cfg) (S : Samples) (fs : Nat) (f : FieldIx), d.sps = c.sps → d.failureScore = c.failureScore →
    c.field[f].Perm d.field[f] → decodeField d S fs f = decodeField c S fs f

/-- R168: the laws (a) – (e) of `decodeField`. -/
def Obligations.FieldLawsOfR168 : Prop :=
  ∀ (s : State) (fs : Nat) (f : FieldIx), s.cfg.valid = true →
    let r := decodeField s.cfg s.samples fs f
    -- (a)
    (∀ want : CodePair → Symbol, (∀ e ∈ s.cfg.field[f], want e ≠ .marker ∧ spanIs s (spanStart s.cfg fs e.pos) (want e)) →
      r = ⟨((s.cfg.field[f].filter fun e => decide (want e = .one)).map CodePair.weight).sum, 0, 0, false⟩) ∧
    -- (b)
    (r.fail = false →
      r.worst ≤ r.score ∧ r.score ≤ s.cfg.field[f].length * r.worst ∧ r.worst ≤ 7 * s.cfg.sps / 10 ∧
        r.score < s.cfg.failureScore ∧ r.value ≤ weightSum s.cfg.field[f]) ∧
    -- (c)
    (r.fail = true → r = ⟨0, s.cfg.failureScore, s.cfg.sps, true⟩) ∧
    -- (d)
    (∀ want : CodePair → Symbol, (∀ e ∈ s.cfg.field[f], want e ≠ .marker ∧ spanIs s (spanStart s.cfg fs e.pos) (want e)) →
      ∀ m : Memory, r.score ≤ (decodeField s.cfg (State.samples { s with smp := m }) fs f).score ∧
        ((decodeField s.cfg (State.samples { s with smp := m }) fs f).fail = true →
          0 < (decodeField s.cfg (State.samples { s with smp := m }) fs f).score)) ∧
    -- (e)
    (∀ m : Memory, (∀ k, inFieldSpans s.cfg fs f k → State.sample { s with smp := m } k = s.sample k) →
      decodeField s.cfg (State.samples { s with smp := m }) fs f = r)

/-- R162: DECFIELD, its result, its two errors and their order, and its example. -/
def Obligations.DecfieldOperation : Prop :=
  (∀ (s : State) (g : FieldIx) (start : Nat), s.cfg.valid = true → start + s.cfg.frameLen ≤ s.cfg.n →
    let r := decodeField s.cfg s.samples start g
    ∃ t, exec (.decfield g.val start) s = .next t ∧
      t.fValue[g].toNat = r.value ∧ t.fScore[g].toNat = r.score ∧ t.fWorst[g].toNat = r.worst ∧
      t.fFail.getLsbD g = r.fail ∧
      (∀ h : FieldIx, h ≠ g → t.fValue[h] = s.fValue[h] ∧ t.fScore[h] = s.fScore[h] ∧ t.fWorst[h] = s.fWorst[h] ∧
        t.fFail.getLsbD h = s.fFail.getLsbD h) ∧
      t = { s with fValue := t.fValue, fScore := t.fScore, fWorst := t.fWorst, fFail := t.fFail,
                   running := none, done := true, err := .noError }) ∧
  (∀ (s : State) (start : Nat),
    exec (.decfield 7 start) s = .next { s with running := none, done := true, err := .operand, anyErr := true }) ∧
  (∀ (s : State) (g : FieldIx) (start : Nat), s.cfg.n < start + s.cfg.frameLen →
    exec (.decfield g.val start) s =
      .next { s with running := none, done := true, err := .bounds, anyErr := true }) ∧
  decode 0x41000089#32 = .ok (.decfield 1 137) ∧
  (∀ s : State, s.cfg = Cfg.wce1 →
    (∀ e ∈ [(1, Symbol.zero), (2, .one), (3, .one), (5, .zero), (6, .one), (7, .zero), (8, .zero)],
      spanIs s (137 + e.1 * 40) e.2) →
    ∃ t, exec (.decfield 1 137) s = .next t ∧ t.fValue[FieldIx.minutes].toNat = 34 ∧
      t.fScore[FieldIx.minutes].toNat = 0 ∧ t.fWorst[FieldIx.minutes].toNat = 0 ∧ t.fFail.getLsbD 1 = false)

/-- R170, R171: DECFRAME writes the results of all seven fields and the two aggregates, nothing else but STATUS; BOUNDS
writes none of them. -/
def Obligations.DecframeOperation : Prop :=
  (∀ (s : State) (start : Nat), s.cfg.valid = true → start + s.cfg.frameLen ≤ s.cfg.n →
    ∃ t, exec (.decframe start) s = .next t ∧
      (∀ g : FieldIx,
        let r := decodeField s.cfg s.samples start g
        t.fValue[g].toNat = r.value ∧ t.fScore[g].toNat = r.score ∧ t.fWorst[g].toNat = r.worst ∧
          t.fFail.getLsbD g = r.fail) ∧
      t.aScore.toNat = ∑ g : FieldIx, (decodeField s.cfg s.samples start g).score ∧
      (∀ g : FieldIx, (decodeField s.cfg s.samples start g).worst ≤ t.aWorst.toNat) ∧
      (∃ g : FieldIx, t.aWorst.toNat = (decodeField s.cfg s.samples start g).worst) ∧
      t = { s with fValue := t.fValue, fScore := t.fScore, fWorst := t.fWorst, fFail := t.fFail,
                   aScore := t.aScore, aWorst := t.aWorst, running := none, done := true, err := .noError }) ∧
  (∀ (s : State) (start : Nat), s.cfg.n < start + s.cfg.frameLen →
    exec (.decframe start) s = .next { s with running := none, done := true, err := .bounds, anyErr := true })

/-- R172: the aggregates with failed fields: each failed field adds FAILURE_SCORE, and one failed field makes the worst SPS. -/
def Obligations.FailedFieldsInTheAggregates : Prop :=
  ∀ (c : Cfg) (S : Samples) (fs : Nat), c.valid = true →
    let r := decodeField c S fs
    frameTotal c S fs =
      (∑ g : FieldIx, if (r g).fail then 0 else (r g).score) +
        c.failureScore * (Finset.univ.filter fun g : FieldIx => (r g).fail = true).card ∧
    frameTotal c S fs < 2 ^ 32 ∧
    ((∃ g : FieldIx, (r g).fail = true) → frameWorst c S fs = c.sps)

/-- R173: the registers of a field after DECFRAME are exactly what DECFIELD of that field alone would have written. -/
def Obligations.FieldsAreIsolated : Prop :=
  ∀ (s : State) (start : Nat) (g : FieldIx), start + s.cfg.frameLen ≤ s.cfg.n →
    ∃ t u, exec (.decframe start) s = .next t ∧ exec (.decfield g.val start) s = .next u ∧
      t.fValue[g] = u.fValue[g] ∧ t.fScore[g] = u.fScore[g] ∧ t.fWorst[g] = u.fWorst[g] ∧
      t.fFail.getLsbD g = u.fFail.getLsbD g

/-- R175: DECODE completes from every state, and its result is that of FINDFRAME followed by DECFRAME at R_OFFSET. -/
def Obligations.DecodeIsFindframeThenDecframe : Prop :=
  ∀ s : State, s.cfg.valid = true →
    ∃ u t, exec .findframe s = .next u ∧ exec (.decframe u.rOffset.toNat) u = .next t ∧ t.err = .noError ∧
      exec .decode s = .next t

/-! ### What an operation leaves as it was -/

/-- R38, rows SCORE and CLASSIFY: the frame of the two matcher operations. -/
def Obligations.MatcherOperationsKeepTheRest : Prop :=
  ∀ (s t : State) (sym start : Nat),
    (exec (.score sym start) s = .next t → KeepsTheRest (.score sym start) s t) ∧
    (exec (.classify start) s = .next t → KeepsTheRest (.classify start) s t)

/-- R38, row FINDFRAME: the frame of the search. -/
def Obligations.FindframeKeepsTheRest : Prop :=
  ∀ s t : State, exec .findframe s = .next t → KeepsTheRest .findframe s t

/-- R38, rows DECFIELD, DECFRAME and DECODE: the frame of the field decoder's operations. -/
def Obligations.FieldOperationsKeepTheRest : Prop :=
  ∀ (s t : State) (f start : Nat),
    (exec (.decfield f start) s = .next t → KeepsTheRest (.decfield f start) s t) ∧
    (exec (.decframe start) s = .next t → KeepsTheRest (.decframe start) s t) ∧
    (exec .decode s = .next t → KeepsTheRest .decode s t)

/-- R39: no operation reads a result register or a status bit: what it writes is the same from any two states with the same
samples and configuration; and the same command again, with the samples unchanged, changes nothing. -/
def Obligations.ResultsComeFromSamplesAlone : Prop :=
  (∀ (i : Instr) (s u s' u' : State), u.cfg = s.cfg → u.smp = s.smp → exec i s = .next s' → exec i u = .next u' →
    s'.err = u'.err ∧
    (s'.err = .noError → ∀ k, writesResult i k = true → k ≠ .fFail → s'.regValue k = u'.regValue k) ∧
    (s'.err = .noError → ∀ (start : Nat) (g : FieldIx), i = .decfield g.val start ∨ i = .decframe start ∨ i = .decode →
      s'.fFail.getLsbD g = u'.fFail.getLsbD g)) ∧
  (∀ (i : Instr) (s t : State), exec i s = .next t → exec i t = .next t)

/-- R73: the result of an operation depends on no cell but those its row lists; with the WCE-1 table a search depends on all
of them. -/
def Obligations.ResultsDependOnListedCells : Prop :=
  (∀ (i : Instr) (s t : State) (m : Memory),
    (∀ k, dependsOnCell s.cfg (findFrame s.cfg s.samples).1 i k → State.sample { s with smp := m } k = s.sample k) →
    exec i s = .next t → exec i { s with smp := m } = .next { t with smp := m }) ∧
  (∀ k, k < 4800 → dependsOnCell Cfg.wce1 0 .findframe k)

/-- R45, and R30, R31, R34 for the failed field's score and the worst scores: under the constraints of R6 every value fits
the register it is written to, so no rule wraps or truncates. -/
def Obligations.NoValueOverflowsItsRegister : Prop :=
  (∀ (c : Cfg) (S : Samples), c.valid = true →
    (∀ st y, score c S st y ≤ c.sps) ∧ c.sps ≤ 3640 ∧
    (∀ c0, syncTotal c S c0 ≤ 18 * c.sps) ∧ 18 * c.sps ≤ 65520 ∧
    (∀ fs f, (decodeField c S fs f).fail = false →
      (decodeField c S fs f).score ≤ c.field[f].length * c.sps ∧ (decodeField c S fs f).score ≤ 58240 ∧
        (decodeField c S fs f).score < c.failureScore) ∧
    (∀ fs f, (decodeField c S fs f).score ≤ 65535 ∧ (decodeField c S fs f).worst ≤ c.sps) ∧
    (∀ st, (classify c S st).2 ≤ 7 * c.sps / 10) ∧
    (∀ fs f, (decodeField c S fs f).value ≤ weightSum c.field[f] ∧ weightSum c.field[f] ≤ 65535) ∧
    (∀ fs, frameTotal c S fs ≤ 458745 ∧ frameWorst c S fs ≤ c.sps) ∧ (findFrame c S).1 ≤ c.lastCand ∧ c.lastCand < c.n ∧ c.n < 2 ^ 24) ∧
  (∀ (S : Samples) (fs : Nat), (decodeField Cfg.wce1 S fs FieldIx.doy).fail = false →
    (decodeField Cfg.wce1 S fs FieldIx.doy).score ≤ 280)

/-! ### Errors -/

/-- R206: an operation that raises an error, and the engine's turn on a word that raises one (ILLEGAL among them), changes
STATUS and nothing else; the engine is idle again and accepts the next command. -/
def Obligations.ErrorChangesStatusAlone : Prop :=
  (∀ (i : Instr) (s t : State), exec i s = .next t → t.err ≠ .noError →
    t = { s with running := none, done := true, err := t.err, anyErr := true }) ∧
  (∀ s t : State, s.busy = true → engineTurn s = .next t → t.err ≠ .noError →
    t = { s with running := none, done := true, err := t.err, anyErr := true }) ∧
  (∀ (s t : State) (w : Word) (ts : List Turn), s.cfg.valid = true → s.busy = true → engineTurn s = .next t →
    t.err ≠ .noError → step { t with schedule := issue w :: ts } = .next (State.accept { t with schedule := ts } w))

/-- R203, R204, R205: exactly when each operation raises OPERAND and BOUNDS, OPERAND first; an operation never raises
ILLEGAL, and FINDFRAME and DECODE raise nothing. -/
def Obligations.EachErrorHasItsCause : Prop :=
  ∀ (s t : State) (sym f start : Nat), sym < 4 → f < 8 →
    (exec (.score sym start) s = .next t →
      (t.err = .operand ↔ sym = 3) ∧ (t.err = .bounds ↔ sym ≠ 3 ∧ s.cfg.n < start + s.cfg.sps) ∧ t.err ≠ .illegal) ∧
    (exec (.classify start) s = .next t →
      (t.err = .bounds ↔ s.cfg.n < start + s.cfg.sps) ∧ t.err ≠ .operand ∧ t.err ≠ .illegal) ∧
    (exec .findframe s = .next t → t.err = .noError) ∧
    (exec (.decfield f start) s = .next t →
      (t.err = .operand ↔ f = 7) ∧ (t.err = .bounds ↔ f ≠ 7 ∧ s.cfg.n < start + s.cfg.frameLen) ∧ t.err ≠ .illegal) ∧
    (exec (.decframe start) s = .next t →
      (t.err = .bounds ↔ s.cfg.n < start + s.cfg.frameLen) ∧ t.err ≠ .operand ∧ t.err ≠ .illegal) ∧
    (exec .decode s = .next t → t.err = .noError)

/-- R42: every operation answers a next state in which the engine is idle and DONE is 1. -/
def Obligations.EveryOperationCompletes : Prop :=
  ∀ (i : Instr) (s : State), ∃ t, exec i s = .next t ∧ t.busy = false ∧ t.done = true

/-! ### The bus -/

/-- R23, R207: a write to `CMD` while idle is the issue of a command: BUSY 1, DONE 0, ERR back to 0, ANYERR kept, and no
result register changed. -/
def Obligations.CommandWriteIsAccepted : Prop :=
  ∀ (s : State) (w : Word) (ts : List Turn), s.cfg.valid = true → s.busy = false → s.schedule = issue w :: ts →
    step s = .next { s with running := some w, done := false, err := .noError, schedule := ts }

/-- R24: the layout of STATUS as the bus reads it. -/
def Obligations.StatusWordLayout : Prop :=
  ∀ s : State,
    s.statusWord.getLsbD 0 = s.busy ∧ s.statusWord.getLsbD 1 = s.done ∧ bits s.statusWord 4 2 = s.err.code ∧
    s.statusWord.getLsbD 5 = s.anyErr ∧ s.statusWord.getLsbD 6 = s.ovr ∧ bits s.statusWord 31 7 = 0 ∧
    s.err.code < 4

/-- R70: a host write of one word to a sample cell. While idle the cell takes bit 0 and nothing else changes; while busy the
write is dropped and OVR is set. -/
def Obligations.HostWritesOneSample : Prop :=
  ∀ (s : State) (i : Nat) (d : Word) (ts : List Turn), s.cfg.valid = true → i < s.cfg.n →
    s.schedule = .write (BitVec.ofNat 27 (0x4000000 + 4 * i)) 4 d :: ts →
    ∃ t, step s = .next t ∧
      (s.busy = false → (∀ j, t.sample j = if j = i then d.getLsbD 0 else s.sample j) ∧
        t = { s with smp := t.smp, schedule := ts }) ∧
      (s.busy = true → t = { s with ovr := true, schedule := ts })

/-- R71: a host read of a sample cell answers its bit, busy or not, and changes nothing. -/
def Obligations.HostReadsOneSample : Prop :=
  ∀ (s : State) (i : Nat) (ts : List Turn), s.cfg.valid = true → i < s.cfg.n →
    s.schedule = .read (BitVec.ofNat 27 (0x4000000 + 4 * i)) 4 :: ts →
    step s = .next { s with rdata := if s.sample i then 1 else 0, schedule := ts }

/-- R22, R23, R35, R36: the register map. While idle a read of register `r` answers its value, with the bits above its width
0, and changes nothing else; and what that value is, register by register: the contents zero-extended to the bus word, the
constants of the configuration, or 0. -/
def Obligations.RegisterMapReads : Prop :=
  (∀ (s : State) (r : Nat) (ts : List Turn), Inv s → r < 64 → s.busy = false → s.schedule = readRegister r :: ts →
    step s = .next { s with rdata := s.regValue (regOf r), schedule := ts } ∧
    (s.regValue (regOf r)).toNat < 2 ^ (regOf r).width) ∧
  [regOf 0, regOf 1, regOf 2, regOf 3, regOf 4, regOf 5, regOf 6, regOf 7, regOf 8, regOf 40, regOf 41, regOf 42] =
    [.cmd, .status, .rSym, .rScore, .rOffset, .rSyncerr, .aScore, .aWorst, .fFail, .cfgSps, .cfgN, .cfgFailscore] ∧
  (∀ f : FieldIx, regOf (16 + f) = .fValue f ∧ regOf (24 + f) = .fScore f ∧ regOf (32 + f) = .fWorst f) ∧
  (∀ r, (9 ≤ r ∧ r ≤ 15) ∨ r = 23 ∨ r = 31 ∨ r = 39 ∨ (43 ≤ r ∧ r ≤ 63) → regOf r = .reserved) ∧
  (∀ s : State,
    s.regValue .cmd = 0 ∧ s.regValue .reserved = 0 ∧ s.regValue .status = s.statusWord ∧
    (s.regValue .rSym).toNat = s.rSym.toNat ∧ (s.regValue .rScore).toNat = s.rScore.toNat ∧
    (s.regValue .rOffset).toNat = s.rOffset.toNat ∧ (s.regValue .rSyncerr).toNat = s.rSyncerr.toNat ∧
    s.regValue .aScore = s.aScore ∧ (s.regValue .aWorst).toNat = s.aWorst.toNat ∧
    (s.regValue .fFail).toNat = s.fFail.toNat ∧
    (∀ f : FieldIx, (s.regValue (.fValue f)).toNat = s.fValue[f].toNat ∧
      (s.regValue (.fScore f)).toNat = s.fScore[f].toNat ∧ (s.regValue (.fWorst f)).toNat = s.fWorst[f].toNat) ∧
    (s.cfg.valid = true →
      (s.regValue .cfgSps).toNat = s.cfg.sps ∧ (s.regValue .cfgN).toNat = s.cfg.n ∧
        (s.regValue .cfgFailscore).toNat = s.cfg.failureScore))

/-- R36, R37, R61: a host write to a register other than `CMD`, or to an unmapped address, changes nothing, busy or not; a
read of an unmapped address answers 0. -/
def Obligations.OtherBusAccessesHaveNoEffect : Prop :=
  ∀ (s : State) (a : BusAddr) (d : Word) (ts : List Turn), s.cfg.valid = true → a.toNat % 4 = 0 →
    (4 ≤ a.toNat → a.toNat < 0x4000000 ∨ 0x4000000 + 4 * s.cfg.n ≤ a.toNat → s.schedule = .write a 4 d :: ts →
      step s = .next { s with schedule := ts }) ∧
    (0x100 ≤ a.toNat → a.toNat < 0x4000000 ∨ 0x4000000 + 4 * s.cfg.n ≤ a.toNat → s.schedule = .read a 4 :: ts →
      step s = .next { s with rdata := 0, schedule := ts })

/-- R241: a write to `CMD` or to a sample cell while busy is dropped and sets OVR, which only a reset edge clears (and ANYERR
likewise, R207), and the running operation completes with the result it would have had. -/
def Obligations.WritesWhileBusyAreDropped : Prop :=
  (∀ (s : State) (a : BusAddr) (d : Word) (ts : List Turn), s.cfg.valid = true → s.busy = true → a.toNat % 4 = 0 →
    (a = 0 ∨ (0x4000000 ≤ a.toNat ∧ a.toNat < 0x4000000 + 4 * s.cfg.n)) → s.schedule = .write a 4 d :: ts →
    step s = .next { s with ovr := true, schedule := ts }) ∧
  (∀ s t : State, step s = .next t → s.schedule.head? ≠ some .rst →
    (s.ovr = true → t.ovr = true) ∧ (s.anyErr = true → t.anyErr = true)) ∧
  (∀ (i : Instr) (s t : State), exec i s = .next t → exec i { s with ovr := true } = .next { t with ovr := true })

/-- R242: while busy a read of STATUS, of a `CFG_*` register or of a reserved register answers the true value; a read of a
result register answers an unspecified value within the register's width, a new one at every read, and the old contents stay.
The counter that tells the reads apart is the model's choice (notes/assumptions 9). -/
def Obligations.ReadsWhileBusy : Prop :=
  ∀ (s : State) (r : Nat) (ts : List Turn), s.cfg.valid = true → r < 64 → s.busy = true →
    s.schedule = readRegister r :: ts →
    ((regOf r).isResult = false → step s = .next { s with rdata := s.regValue (regOf r), schedule := ts }) ∧
    ((regOf r).isResult = true →
      ∃ t, step s = .next t ∧ t.rdata.toNat < 2 ^ (regOf r).width ∧
        t.rdata.toNat = (Config.freeRead s.freeReads).toNat % 2 ^ (regOf r).width ∧
        t = { s with rdata := t.rdata, freeReads := s.freeReads + 1, schedule := ts })

/-- R72, R232: a host that writes a capture in order leaves sample `k` of it in cell `k`, every later cell as it was, and no
register changed. -/
def Obligations.LoadedCaptureIsInTheCells : Prop :=
  ∀ (s : State) (bs : List Sample) (ts : List Turn), s.cfg.valid = true → s.busy = false → bs.length ≤ s.cfg.n →
    s.schedule = loadFrom 0 bs ++ ts →
    ∃ t, Sys2Proof.core.run bs.length s = .next t ∧
      (∀ k, t.sample k = (bs[k]?).getD (s.sample k)) ∧ t = { s with smp := t.smp, schedule := ts }

/-! ### The host's functions -/

/-- R190 – R192: a day outside the year is invalid; any other gives the month whose days contain it, and the day within it. -/
def Obligations.CalendarConversion : Prop :=
  ∀ (d : Nat) (leap : Bool),
    let last := if leap then 366 else 365
    let lens := [31, if leap then 29 else 28, 31, 30, 31, 30, 31, 31, 30, 31, 30, 31]
    (d < 1 ∨ last < d → dayOfYearToMonthDay d leap = .invalidInput) ∧
    (1 ≤ d → d ≤ last → ∃ m day, dayOfYearToMonthDay d leap = .date (m + 1) day ∧ m < 12 ∧
      1 ≤ day ∧ day ≤ lens.getD m 0 ∧ d = (lens.take m).sum + day)

/-- R193: the worked values of the source and the spec's further ones. -/
def Obligations.CalendarWorkedValues : Prop :=
  dayOfYearToMonthDay 59 false = .date 2 28 ∧ dayOfYearToMonthDay 60 true = .date 2 29 ∧
  dayOfYearToMonthDay 1 false = .date 1 1 ∧ dayOfYearToMonthDay 60 false = .date 3 1 ∧
  dayOfYearToMonthDay 366 true = .date 12 31 ∧ dayOfYearToMonthDay 365 false = .date 12 31 ∧
  dayOfYearToMonthDay 31 false = .date 1 31 ∧ dayOfYearToMonthDay 32 true = .date 2 1 ∧
  dayOfYearToMonthDay 366 false = .invalidInput ∧ dayOfYearToMonthDay 0 false = .invalidInput ∧
  dayOfYearToMonthDay 367 true = .invalidInput

/-- R195, R196: the tiers at their thresholds, and the tier of every frame with a failed field under WCE-1. -/
def Obligations.ReliabilityTiers : Prop :=
  (∀ (c : Cfg) (w : Nat), c.valid = true →
    (reliability c w = .likelyOk ↔ w < c.tierOkLt) ∧
    (reliability c w = .notReliable ↔ c.tierOkLt ≤ w ∧ w < c.tierNrLt) ∧
    (reliability c w = .probablyBad ↔ c.tierNrLt ≤ w)) ∧
  reliability Cfg.wce1 6 = .likelyOk ∧ reliability Cfg.wce1 9 = .notReliable ∧
  reliability Cfg.wce1 10 = .probablyBad ∧ reliability Cfg.wce1 0 = .likelyOk ∧
  reliability Cfg.wce1 7 = .notReliable ∧ reliability Cfg.wce1 40 = .probablyBad
end

