-- ==== Sys2Proof/Laws/Config.lean ====
section
/-! SUPPORT. What a valid configuration gives (R6, R7), each part by its own name. -/

namespace Sys2Proof

theorem Cfg.valid_iff (c : Cfg) :
    c.valid = true ↔ c.spsOk = true ∧ c.bufsecOk = true ∧ c.fixmapOk = true ∧
      (∀ f : FieldIx, codeOk c.field[f] = true) ∧ c.failureScoreOk = true ∧ c.tierOkLt ≤ c.tierNrLt := by
  have hall : FieldIx.all.all (fun f => codeOk c.field[f]) = true ↔ ∀ f : FieldIx, codeOk c.field[f] = true := by
    rw [List.all_eq_true]
    refine ⟨fun h f => h f ?_, fun h f _ => h f⟩
    fin_cases f <;> simp
  simp only [Cfg.valid, Bool.and_eq_true, hall, decide_eq_true_eq, and_assoc]

section
variable {c : Cfg} (h : c.valid = true)
include h

theorem Cfg.valid_sps : c.sps % 10 = 0 ∧ 10 ≤ c.sps ∧ c.sps ≤ 3640 := by
  have := ((Cfg.valid_iff c).1 h).1
  simpa [Cfg.spsOk, and_assoc] using this

theorem Cfg.valid_bufsec : 120 ≤ c.bufsec ∧ c.n < 2 ^ 24 := by
  have := ((Cfg.valid_iff c).1 h).2.1
  simpa [Cfg.bufsecOk, Cfg.n] using this

theorem Cfg.valid_fixmap_length : c.fixmap.length = 18 := by
  have := ((Cfg.valid_iff c).1 h).2.2.1
  simp only [Cfg.fixmapOk, Bool.and_eq_true, beq_iff_eq] at this
  exact this.1.1

theorem Cfg.valid_fixmap_entry {e : FixedPos} (he : e ∈ c.fixmap) : e.pos < 60 ∧ (e.sym = .zero ∨ e.sym = .marker) := by
  have := ((Cfg.valid_iff c).1 h).2.2.1
  simp only [Cfg.fixmapOk, Bool.and_eq_true, List.all_eq_true, decide_eq_true_eq] at this
  have := this.1.2 e he
  refine ⟨this.1, ?_⟩
  have h2 := this.2
  cases hs : e.sym <;> simp_all [Symbol.fixable]

theorem Cfg.valid_code (f : FieldIx) : codeOk c.field[f] = true := ((Cfg.valid_iff c).1 h).2.2.2.1 f

theorem Cfg.valid_code_length (f : FieldIx) : 1 ≤ c.field[f].length ∧ c.field[f].length ≤ 16 := by
  have := Cfg.valid_code h f
  simp only [codeOk, Bool.and_eq_true, decide_eq_true_eq] at this
  exact ⟨this.1.1.1, this.1.1.2⟩

theorem Cfg.valid_code_entry (f : FieldIx) {e : CodePair} (he : e ∈ c.field[f]) : e.pos < 60 ∧ 1 ≤ e.weight := by
  have := Cfg.valid_code h f
  simp only [codeOk, Bool.and_eq_true, List.all_eq_true, decide_eq_true_eq] at this
  exact this.1.2 e he

theorem Cfg.valid_weightSum (f : FieldIx) : weightSum c.field[f] ≤ 65535 := by
  have := Cfg.valid_code h f
  simp only [codeOk, Bool.and_eq_true, decide_eq_true_eq] at this
  exact this.2

theorem Cfg.valid_failureScore :
    (∀ f : FieldIx, c.field[f].length * c.sps < c.failureScore) ∧ c.failureScore ≤ 65535 := by
  have := ((Cfg.valid_iff c).1 h).2.2.2.2.1
  simp only [Cfg.failureScoreOk, Bool.and_eq_true, List.all_eq_true, decide_eq_true_eq] at this
  refine ⟨fun f => this.1 f ?_, this.2⟩
  fin_cases f <;> simp

/-- `N ≥ 2 × FRAMELEN` (R7). -/
theorem Cfg.valid_two_frames : 2 * c.frameLen ≤ c.n := by
  have hb := (Cfg.valid_bufsec h).1
  have := Nat.mul_le_mul_left c.sps hb
  simp only [Cfg.frameLen, Cfg.n, frameSec]
  omega

/-- A frame at a candidate offset fits: `LASTCAND + FRAMELEN = N` (R7). -/
theorem Cfg.valid_lastCand : c.lastCand + c.frameLen = c.n := by
  have := Cfg.valid_two_frames h
  simp only [Cfg.lastCand]
  omega

/-- The low phases in terms of one tenth of a second: SPS/5, SPS/2 and 4 × SPS/5 (R7). -/
theorem Cfg.valid_lowLen : ∃ q, c.sps = 10 * q ∧ c.lowLen .zero = 2 * q ∧ c.lowLen .one = 5 * q ∧ c.lowLen .marker = 8 * q := by
  have h10 := (Cfg.valid_sps h).1
  refine ⟨c.sps / 10, by omega, ?_, ?_, ?_⟩ <;> simp only [Cfg.lowLen, Symbol.lowNum] <;> omega

end

end Sys2Proof
end

