-- ==== Sys2Proof/Laws/State.lean ====
section
/-! SUPPORT. One lemma for each field of State and each of its updates, so that no proof unfolds a record update. -/

namespace Sys2Proof.Machine

variable (s : State)

@[simp] theorem State.setSymScore_cfg (code score : Nat) : (s.setSymScore code score).cfg = s.cfg := rfl
@[simp] theorem State.setSymScore_smp (code score : Nat) : (s.setSymScore code score).smp = s.smp := rfl
@[simp] theorem State.setSymScore_running (code score : Nat) : (s.setSymScore code score).running = s.running := rfl
@[simp] theorem State.setSymScore_done (code score : Nat) : (s.setSymScore code score).done = s.done := rfl
@[simp] theorem State.setSymScore_err (code score : Nat) : (s.setSymScore code score).err = s.err := rfl
@[simp] theorem State.setSymScore_anyErr (code score : Nat) : (s.setSymScore code score).anyErr = s.anyErr := rfl
@[simp] theorem State.setSymScore_ovr (code score : Nat) : (s.setSymScore code score).ovr = s.ovr := rfl
@[simp] theorem State.setSymScore_rSym (code score : Nat) : (s.setSymScore code score).rSym = BitVec.ofNat 2 code := rfl
@[simp] theorem State.setSymScore_rScore (code score : Nat) : (s.setSymScore code score).rScore = BitVec.ofNat 16 score := rfl
@[simp] theorem State.setSymScore_rOffset (code score : Nat) : (s.setSymScore code score).rOffset = s.rOffset := rfl
@[simp] theorem State.setSymScore_rSyncerr (code score : Nat) : (s.setSymScore code score).rSyncerr = s.rSyncerr := rfl
@[simp] theorem State.setSymScore_aScore (code score : Nat) : (s.setSymScore code score).aScore = s.aScore := rfl
@[simp] theorem State.setSymScore_aWorst (code score : Nat) : (s.setSymScore code score).aWorst = s.aWorst := rfl
@[simp] theorem State.setSymScore_fFail (code score : Nat) : (s.setSymScore code score).fFail = s.fFail := rfl
@[simp] theorem State.setSymScore_fValue (code score : Nat) : (s.setSymScore code score).fValue = s.fValue := rfl
@[simp] theorem State.setSymScore_fScore (code score : Nat) : (s.setSymScore code score).fScore = s.fScore := rfl
@[simp] theorem State.setSymScore_fWorst (code score : Nat) : (s.setSymScore code score).fWorst = s.fWorst := rfl
@[simp] theorem State.setSymScore_schedule (code score : Nat) : (s.setSymScore code score).schedule = s.schedule := rfl
@[simp] theorem State.setSymScore_rdata (code score : Nat) : (s.setSymScore code score).rdata = s.rdata := rfl
@[simp] theorem State.setSymScore_freeReads (code score : Nat) : (s.setSymScore code score).freeReads = s.freeReads := rfl

@[simp] theorem State.setSync_cfg (off tot : Nat) : (s.setSync off tot).cfg = s.cfg := rfl
@[simp] theorem State.setSync_smp (off tot : Nat) : (s.setSync off tot).smp = s.smp := rfl
@[simp] theorem State.setSync_running (off tot : Nat) : (s.setSync off tot).running = s.running := rfl
@[simp] theorem State.setSync_done (off tot : Nat) : (s.setSync off tot).done = s.done := rfl
@[simp] theorem State.setSync_err (off tot : Nat) : (s.setSync off tot).err = s.err := rfl
@[simp] theorem State.setSync_anyErr (off tot : Nat) : (s.setSync off tot).anyErr = s.anyErr := rfl
@[simp] theorem State.setSync_ovr (off tot : Nat) : (s.setSync off tot).ovr = s.ovr := rfl
@[simp] theorem State.setSync_rSym (off tot : Nat) : (s.setSync off tot).rSym = s.rSym := rfl
@[simp] theorem State.setSync_rScore (off tot : Nat) : (s.setSync off tot).rScore = s.rScore := rfl
@[simp] theorem State.setSync_rOffset (off tot : Nat) : (s.setSync off tot).rOffset = BitVec.ofNat 24 off := rfl
@[simp] theorem State.setSync_rSyncerr (off tot : Nat) : (s.setSync off tot).rSyncerr = BitVec.ofNat 16 tot := rfl
@[simp] theorem State.setSync_aScore (off tot : Nat) : (s.setSync off tot).aScore = s.aScore := rfl
@[simp] theorem State.setSync_aWorst (off tot : Nat) : (s.setSync off tot).aWorst = s.aWorst := rfl
@[simp] theorem State.setSync_fFail (off tot : Nat) : (s.setSync off tot).fFail = s.fFail := rfl
@[simp] theorem State.setSync_fValue (off tot : Nat) : (s.setSync off tot).fValue = s.fValue := rfl
@[simp] theorem State.setSync_fScore (off tot : Nat) : (s.setSync off tot).fScore = s.fScore := rfl
@[simp] theorem State.setSync_fWorst (off tot : Nat) : (s.setSync off tot).fWorst = s.fWorst := rfl
@[simp] theorem State.setSync_schedule (off tot : Nat) : (s.setSync off tot).schedule = s.schedule := rfl
@[simp] theorem State.setSync_rdata (off tot : Nat) : (s.setSync off tot).rdata = s.rdata := rfl
@[simp] theorem State.setSync_freeReads (off tot : Nat) : (s.setSync off tot).freeReads = s.freeReads := rfl

@[simp] theorem State.setFrame_cfg (value score worst : FieldIx → Nat) (fail : FieldIx → Bool) (total maxWorst : Nat) : (s.setFrame value score worst fail total maxWorst).cfg = s.cfg := rfl
@[simp] theorem State.setFrame_smp (value score worst : FieldIx → Nat) (fail : FieldIx → Bool) (total maxWorst : Nat) : (s.setFrame value score worst fail total maxWorst).smp = s.smp := rfl
@[simp] theorem State.setFrame_running (value score worst : FieldIx → Nat) (fail : FieldIx → Bool) (total maxWorst : Nat) : (s.setFrame value score worst fail total maxWorst).running = s.running := rfl
@[simp] theorem State.setFrame_done (value score worst : FieldIx → Nat) (fail : FieldIx → Bool) (total maxWorst : Nat) : (s.setFrame value score worst fail total maxWorst).done = s.done := rfl
@[simp] theorem State.setFrame_err (value score worst : FieldIx → Nat) (fail : FieldIx → Bool) (total maxWorst : Nat) : (s.setFrame value score worst fail total maxWorst).err = s.err := rfl
@[simp] theorem State.setFrame_anyErr (value score worst : FieldIx → Nat) (fail : FieldIx → Bool) (total maxWorst : Nat) : (s.setFrame value score worst fail total maxWorst).anyErr = s.anyErr := rfl
@[simp] theorem State.setFrame_ovr (value score worst : FieldIx → Nat) (fail : FieldIx → Bool) (total maxWorst : Nat) : (s.setFrame value score worst fail total maxWorst).ovr = s.ovr := rfl
@[simp] theorem State.setFrame_rSym (value score worst : FieldIx → Nat) (fail : FieldIx → Bool) (total maxWorst : Nat) : (s.setFrame value score worst fail total maxWorst).rSym = s.rSym := rfl
@[simp] theorem State.setFrame_rScore (value score worst : FieldIx → Nat) (fail : FieldIx → Bool) (total maxWorst : Nat) : (s.setFrame value score worst fail total maxWorst).rScore = s.rScore := rfl
@[simp] theorem State.setFrame_rOffset (value score worst : FieldIx → Nat) (fail : FieldIx → Bool) (total maxWorst : Nat) : (s.setFrame value score worst fail total maxWorst).rOffset = s.rOffset := rfl
@[simp] theorem State.setFrame_rSyncerr (value score worst : FieldIx → Nat) (fail : FieldIx → Bool) (total maxWorst : Nat) : (s.setFrame value score worst fail total maxWorst).rSyncerr = s.rSyncerr := rfl
@[simp] theorem State.setFrame_aScore (value score worst : FieldIx → Nat) (fail : FieldIx → Bool) (total maxWorst : Nat) : (s.setFrame value score worst fail total maxWorst).aScore = BitVec.ofNat 32 total := rfl
@[simp] theorem State.setFrame_aWorst (value score worst : FieldIx → Nat) (fail : FieldIx → Bool) (total maxWorst : Nat) : (s.setFrame value score worst fail total maxWorst).aWorst = BitVec.ofNat 16 maxWorst := rfl
@[simp] theorem State.setFrame_fFail (value score worst : FieldIx → Nat) (fail : FieldIx → Bool) (total maxWorst : Nat) : (s.setFrame value score worst fail total maxWorst).fFail = failBits fail := rfl
@[simp] theorem State.setFrame_fValue (value score worst : FieldIx → Nat) (fail : FieldIx → Bool) (total maxWorst : Nat) : (s.setFrame value score worst fail total maxWorst).fValue = fieldArray value := rfl
@[simp] theorem State.setFrame_fScore (value score worst : FieldIx → Nat) (fail : FieldIx → Bool) (total maxWorst : Nat) : (s.setFrame value score worst fail total maxWorst).fScore = fieldArray score := rfl
@[simp] theorem State.setFrame_fWorst (value score worst : FieldIx → Nat) (fail : FieldIx → Bool) (total maxWorst : Nat) : (s.setFrame value score worst fail total maxWorst).fWorst = fieldArray worst := rfl
@[simp] theorem State.setFrame_schedule (value score worst : FieldIx → Nat) (fail : FieldIx → Bool) (total maxWorst : Nat) : (s.setFrame value score worst fail total maxWorst).schedule = s.schedule := rfl
@[simp] theorem State.setFrame_rdata (value score worst : FieldIx → Nat) (fail : FieldIx → Bool) (total maxWorst : Nat) : (s.setFrame value score worst fail total maxWorst).rdata = s.rdata := rfl
@[simp] theorem State.setFrame_freeReads (value score worst : FieldIx → Nat) (fail : FieldIx → Bool) (total maxWorst : Nat) : (s.setFrame value score worst fail total maxWorst).freeReads = s.freeReads := rfl

@[simp] theorem State.setField_cfg (f : FieldIx) (value score worst : Nat) (fail : Bool) : (s.setField f value score worst fail).cfg = s.cfg := rfl
@[simp] theorem State.setField_smp (f : FieldIx) (value score worst : Nat) (fail : Bool) : (s.setField f value score worst fail).smp = s.smp := rfl
@[simp] theorem State.setField_running (f : FieldIx) (value score worst : Nat) (fail : Bool) : (s.setField f value score worst fail).running = s.running := rfl
@[simp] theorem State.setField_done (f : FieldIx) (value score worst : Nat) (fail : Bool) : (s.setField f value score worst fail).done = s.done := rfl
@[simp] theorem State.setField_err (f : FieldIx) (value score worst : Nat) (fail : Bool) : (s.setField f value score worst fail).err = s.err := rfl
@[simp] theorem State.setField_anyErr (f : FieldIx) (value score worst : Nat) (fail : Bool) : (s.setField f value score worst fail).anyErr = s.anyErr := rfl
@[simp] theorem State.setField_ovr (f : FieldIx) (value score worst : Nat) (fail : Bool) : (s.setField f value score worst fail).ovr = s.ovr := rfl
@[simp] theorem State.setField_rSym (f : FieldIx) (value score worst : Nat) (fail : Bool) : (s.setField f value score worst fail).rSym = s.rSym := rfl
@[simp] theorem State.setField_rScore (f : FieldIx) (value score worst : Nat) (fail : Bool) : (s.setField f value score worst fail).rScore = s.rScore := rfl
@[simp] theorem State.setField_rOffset (f : FieldIx) (value score worst : Nat) (fail : Bool) : (s.setField f value score worst fail).rOffset = s.rOffset := rfl
@[simp] theorem State.setField_rSyncerr (f : FieldIx) (value score worst : Nat) (fail : Bool) : (s.setField f value score worst fail).rSyncerr = s.rSyncerr := rfl
@[simp] theorem State.setField_aScore (f : FieldIx) (value score worst : Nat) (fail : Bool) : (s.setField f value score worst fail).aScore = s.aScore := rfl
@[simp] theorem State.setField_aWorst (f : FieldIx) (value score worst : Nat) (fail : Bool) : (s.setField f value score worst fail).aWorst = s.aWorst := rfl
@[simp] theorem State.setField_fFail (f : FieldIx) (value score worst : Nat) (fail : Bool) : (s.setField f value score worst fail).fFail = withFailBit s.fFail f fail := rfl
@[simp] theorem State.setField_fValue (f : FieldIx) (value score worst : Nat) (fail : Bool) : (s.setField f value score worst fail).fValue = s.fValue.set f (BitVec.ofNat 16 value) := rfl
@[simp] theorem State.setField_fScore (f : FieldIx) (value score worst : Nat) (fail : Bool) : (s.setField f value score worst fail).fScore = s.fScore.set f (BitVec.ofNat 16 score) := rfl
@[simp] theorem State.setField_fWorst (f : FieldIx) (value score worst : Nat) (fail : Bool) : (s.setField f value score worst fail).fWorst = s.fWorst.set f (BitVec.ofNat 16 worst) := rfl
@[simp] theorem State.setField_schedule (f : FieldIx) (value score worst : Nat) (fail : Bool) : (s.setField f value score worst fail).schedule = s.schedule := rfl
@[simp] theorem State.setField_rdata (f : FieldIx) (value score worst : Nat) (fail : Bool) : (s.setField f value score worst fail).rdata = s.rdata := rfl
@[simp] theorem State.setField_freeReads (f : FieldIx) (value score worst : Nat) (fail : Bool) : (s.setField f value score worst fail).freeReads = s.freeReads := rfl

@[simp] theorem State.accept_cfg (w : Word) : (s.accept w).cfg = s.cfg := rfl
@[simp] theorem State.accept_smp (w : Word) : (s.accept w).smp = s.smp := rfl
@[simp] theorem State.accept_running (w : Word) : (s.accept w).running = some w := rfl
@[simp] theorem State.accept_done (w : Word) : (s.accept w).done = false := rfl
@[simp] theorem State.accept_err (w : Word) : (s.accept w).err = .noError := rfl
@[simp] theorem State.accept_anyErr (w : Word) : (s.accept w).anyErr = s.anyErr := rfl
@[simp] theorem State.accept_ovr (w : Word) : (s.accept w).ovr = s.ovr := rfl
@[simp] theorem State.accept_rSym (w : Word) : (s.accept w).rSym = s.rSym := rfl
@[simp] theorem State.accept_rScore (w : Word) : (s.accept w).rScore = s.rScore := rfl
@[simp] theorem State.accept_rOffset (w : Word) : (s.accept w).rOffset = s.rOffset := rfl
@[simp] theorem State.accept_rSyncerr (w : Word) : (s.accept w).rSyncerr = s.rSyncerr := rfl
@[simp] theorem State.accept_aScore (w : Word) : (s.accept w).aScore = s.aScore := rfl
@[simp] theorem State.accept_aWorst (w : Word) : (s.accept w).aWorst = s.aWorst := rfl
@[simp] theorem State.accept_fFail (w : Word) : (s.accept w).fFail = s.fFail := rfl
@[simp] theorem State.accept_fValue (w : Word) : (s.accept w).fValue = s.fValue := rfl
@[simp] theorem State.accept_fScore (w : Word) : (s.accept w).fScore = s.fScore := rfl
@[simp] theorem State.accept_fWorst (w : Word) : (s.accept w).fWorst = s.fWorst := rfl
@[simp] theorem State.accept_schedule (w : Word) : (s.accept w).schedule = s.schedule := rfl
@[simp] theorem State.accept_rdata (w : Word) : (s.accept w).rdata = s.rdata := rfl
@[simp] theorem State.accept_freeReads (w : Word) : (s.accept w).freeReads = s.freeReads := rfl

@[simp] theorem State.complete_cfg : s.complete.cfg = s.cfg := rfl
@[simp] theorem State.complete_smp : s.complete.smp = s.smp := rfl
@[simp] theorem State.complete_running : s.complete.running = none := rfl
@[simp] theorem State.complete_done : s.complete.done = true := rfl
@[simp] theorem State.complete_err : s.complete.err = .noError := rfl
@[simp] theorem State.complete_anyErr : s.complete.anyErr = s.anyErr := rfl
@[simp] theorem State.complete_ovr : s.complete.ovr = s.ovr := rfl
@[simp] theorem State.complete_rSym : s.complete.rSym = s.rSym := rfl
@[simp] theorem State.complete_rScore : s.complete.rScore = s.rScore := rfl
@[simp] theorem State.complete_rOffset : s.complete.rOffset = s.rOffset := rfl
@[simp] theorem State.complete_rSyncerr : s.complete.rSyncerr = s.rSyncerr := rfl
@[simp] theorem State.complete_aScore : s.complete.aScore = s.aScore := rfl
@[simp] theorem State.complete_aWorst : s.complete.aWorst = s.aWorst := rfl
@[simp] theorem State.complete_fFail : s.complete.fFail = s.fFail := rfl
@[simp] theorem State.complete_fValue : s.complete.fValue = s.fValue := rfl
@[simp] theorem State.complete_fScore : s.complete.fScore = s.fScore := rfl
@[simp] theorem State.complete_fWorst : s.complete.fWorst = s.fWorst := rfl
@[simp] theorem State.complete_schedule : s.complete.schedule = s.schedule := rfl
@[simp] theorem State.complete_rdata : s.complete.rdata = s.rdata := rfl
@[simp] theorem State.complete_freeReads : s.complete.freeReads = s.freeReads := rfl

@[simp] theorem State.raise_cfg (e : CmdError) : (s.raise e).cfg = s.cfg := rfl
@[simp] theorem State.raise_smp (e : CmdError) : (s.raise e).smp = s.smp := rfl
@[simp] theorem State.raise_running (e : CmdError) : (s.raise e).running = none := rfl
@[simp] theorem State.raise_done (e : CmdError) : (s.raise e).done = true := rfl
@[simp] theorem State.raise_err (e : CmdError) : (s.raise e).err = e := rfl
@[simp] theorem State.raise_anyErr (e : CmdError) : (s.raise e).anyErr = true := rfl
@[simp] theorem State.raise_ovr (e : CmdError) : (s.raise e).ovr = s.ovr := rfl
@[simp] theorem State.raise_rSym (e : CmdError) : (s.raise e).rSym = s.rSym := rfl
@[simp] theorem State.raise_rScore (e : CmdError) : (s.raise e).rScore = s.rScore := rfl
@[simp] theorem State.raise_rOffset (e : CmdError) : (s.raise e).rOffset = s.rOffset := rfl
@[simp] theorem State.raise_rSyncerr (e : CmdError) : (s.raise e).rSyncerr = s.rSyncerr := rfl
@[simp] theorem State.raise_aScore (e : CmdError) : (s.raise e).aScore = s.aScore := rfl
@[simp] theorem State.raise_aWorst (e : CmdError) : (s.raise e).aWorst = s.aWorst := rfl
@[simp] theorem State.raise_fFail (e : CmdError) : (s.raise e).fFail = s.fFail := rfl
@[simp] theorem State.raise_fValue (e : CmdError) : (s.raise e).fValue = s.fValue := rfl
@[simp] theorem State.raise_fScore (e : CmdError) : (s.raise e).fScore = s.fScore := rfl
@[simp] theorem State.raise_fWorst (e : CmdError) : (s.raise e).fWorst = s.fWorst := rfl
@[simp] theorem State.raise_schedule (e : CmdError) : (s.raise e).schedule = s.schedule := rfl
@[simp] theorem State.raise_rdata (e : CmdError) : (s.raise e).rdata = s.rdata := rfl
@[simp] theorem State.raise_freeReads (e : CmdError) : (s.raise e).freeReads = s.freeReads := rfl

@[simp] theorem State.rstEdge_cfg : s.rstEdge.cfg = s.cfg := rfl
@[simp] theorem State.rstEdge_smp : s.rstEdge.smp = s.smp := rfl
@[simp] theorem State.rstEdge_running : s.rstEdge.running = none := rfl
@[simp] theorem State.rstEdge_done : s.rstEdge.done = false := rfl
@[simp] theorem State.rstEdge_err : s.rstEdge.err = .noError := rfl
@[simp] theorem State.rstEdge_anyErr : s.rstEdge.anyErr = false := rfl
@[simp] theorem State.rstEdge_ovr : s.rstEdge.ovr = false := rfl
@[simp] theorem State.rstEdge_rSym : s.rstEdge.rSym = 0 := rfl
@[simp] theorem State.rstEdge_rScore : s.rstEdge.rScore = 0 := rfl
@[simp] theorem State.rstEdge_rOffset : s.rstEdge.rOffset = 0 := rfl
@[simp] theorem State.rstEdge_rSyncerr : s.rstEdge.rSyncerr = 0 := rfl
@[simp] theorem State.rstEdge_aScore : s.rstEdge.aScore = 0 := rfl
@[simp] theorem State.rstEdge_aWorst : s.rstEdge.aWorst = 0 := rfl
@[simp] theorem State.rstEdge_fFail : s.rstEdge.fFail = 0 := rfl
@[simp] theorem State.rstEdge_fValue : s.rstEdge.fValue = #v[0, 0, 0, 0, 0, 0, 0] := rfl
@[simp] theorem State.rstEdge_fScore : s.rstEdge.fScore = #v[0, 0, 0, 0, 0, 0, 0] := rfl
@[simp] theorem State.rstEdge_fWorst : s.rstEdge.fWorst = #v[0, 0, 0, 0, 0, 0, 0] := rfl
@[simp] theorem State.rstEdge_schedule : s.rstEdge.schedule = s.schedule := rfl
@[simp] theorem State.rstEdge_rdata : s.rstEdge.rdata = s.rdata := rfl
@[simp] theorem State.rstEdge_freeReads : s.rstEdge.freeReads = s.freeReads := rfl

@[simp] theorem State.dropWrite_cfg : s.dropWrite.cfg = s.cfg := rfl
@[simp] theorem State.dropWrite_smp : s.dropWrite.smp = s.smp := rfl
@[simp] theorem State.dropWrite_running : s.dropWrite.running = s.running := rfl
@[simp] theorem State.dropWrite_done : s.dropWrite.done = s.done := rfl
@[simp] theorem State.dropWrite_err : s.dropWrite.err = s.err := rfl
@[simp] theorem State.dropWrite_anyErr : s.dropWrite.anyErr = s.anyErr := rfl
@[simp] theorem State.dropWrite_ovr : s.dropWrite.ovr = true := rfl
@[simp] theorem State.dropWrite_rSym : s.dropWrite.rSym = s.rSym := rfl
@[simp] theorem State.dropWrite_rScore : s.dropWrite.rScore = s.rScore := rfl
@[simp] theorem State.dropWrite_rOffset : s.dropWrite.rOffset = s.rOffset := rfl
@[simp] theorem State.dropWrite_rSyncerr : s.dropWrite.rSyncerr = s.rSyncerr := rfl
@[simp] theorem State.dropWrite_aScore : s.dropWrite.aScore = s.aScore := rfl
@[simp] theorem State.dropWrite_aWorst : s.dropWrite.aWorst = s.aWorst := rfl
@[simp] theorem State.dropWrite_fFail : s.dropWrite.fFail = s.fFail := rfl
@[simp] theorem State.dropWrite_fValue : s.dropWrite.fValue = s.fValue := rfl
@[simp] theorem State.dropWrite_fScore : s.dropWrite.fScore = s.fScore := rfl
@[simp] theorem State.dropWrite_fWorst : s.dropWrite.fWorst = s.fWorst := rfl
@[simp] theorem State.dropWrite_schedule : s.dropWrite.schedule = s.schedule := rfl
@[simp] theorem State.dropWrite_rdata : s.dropWrite.rdata = s.rdata := rfl
@[simp] theorem State.dropWrite_freeReads : s.dropWrite.freeReads = s.freeReads := rfl

@[simp] theorem State.storeSample_cfg (i : Nat) (data : Word) : (s.storeSample i data).cfg = s.cfg := rfl
@[simp] theorem State.storeSample_smp (i : Nat) (data : Word) : (s.storeSample i data).smp = s.smp.write i (data.getLsbD 0) := rfl
@[simp] theorem State.storeSample_running (i : Nat) (data : Word) : (s.storeSample i data).running = s.running := rfl
@[simp] theorem State.storeSample_done (i : Nat) (data : Word) : (s.storeSample i data).done = s.done := rfl
@[simp] theorem State.storeSample_err (i : Nat) (data : Word) : (s.storeSample i data).err = s.err := rfl
@[simp] theorem State.storeSample_anyErr (i : Nat) (data : Word) : (s.storeSample i data).anyErr = s.anyErr := rfl
@[simp] theorem State.storeSample_ovr (i : Nat) (data : Word) : (s.storeSample i data).ovr = s.ovr := rfl
@[simp] theorem State.storeSample_rSym (i : Nat) (data : Word) : (s.storeSample i data).rSym = s.rSym := rfl
@[simp] theorem State.storeSample_rScore (i : Nat) (data : Word) : (s.storeSample i data).rScore = s.rScore := rfl
@[simp] theorem State.storeSample_rOffset (i : Nat) (data : Word) : (s.storeSample i data).rOffset = s.rOffset := rfl
@[simp] theorem State.storeSample_rSyncerr (i : Nat) (data : Word) : (s.storeSample i data).rSyncerr = s.rSyncerr := rfl
@[simp] theorem State.storeSample_aScore (i : Nat) (data : Word) : (s.storeSample i data).aScore = s.aScore := rfl
@[simp] theorem State.storeSample_aWorst (i : Nat) (data : Word) : (s.storeSample i data).aWorst = s.aWorst := rfl
@[simp] theorem State.storeSample_fFail (i : Nat) (data : Word) : (s.storeSample i data).fFail = s.fFail := rfl
@[simp] theorem State.storeSample_fValue (i : Nat) (data : Word) : (s.storeSample i data).fValue = s.fValue := rfl
@[simp] theorem State.storeSample_fScore (i : Nat) (data : Word) : (s.storeSample i data).fScore = s.fScore := rfl
@[simp] theorem State.storeSample_fWorst (i : Nat) (data : Word) : (s.storeSample i data).fWorst = s.fWorst := rfl
@[simp] theorem State.storeSample_schedule (i : Nat) (data : Word) : (s.storeSample i data).schedule = s.schedule := rfl
@[simp] theorem State.storeSample_rdata (i : Nat) (data : Word) : (s.storeSample i data).rdata = s.rdata := rfl
@[simp] theorem State.storeSample_freeReads (i : Nat) (data : Word) : (s.storeSample i data).freeReads = s.freeReads := rfl

@[simp] theorem State.answer_cfg (d : Word) : (s.answer d).cfg = s.cfg := rfl
@[simp] theorem State.answer_smp (d : Word) : (s.answer d).smp = s.smp := rfl
@[simp] theorem State.answer_running (d : Word) : (s.answer d).running = s.running := rfl
@[simp] theorem State.answer_done (d : Word) : (s.answer d).done = s.done := rfl
@[simp] theorem State.answer_err (d : Word) : (s.answer d).err = s.err := rfl
@[simp] theorem State.answer_anyErr (d : Word) : (s.answer d).anyErr = s.anyErr := rfl
@[simp] theorem State.answer_ovr (d : Word) : (s.answer d).ovr = s.ovr := rfl
@[simp] theorem State.answer_rSym (d : Word) : (s.answer d).rSym = s.rSym := rfl
@[simp] theorem State.answer_rScore (d : Word) : (s.answer d).rScore = s.rScore := rfl
@[simp] theorem State.answer_rOffset (d : Word) : (s.answer d).rOffset = s.rOffset := rfl
@[simp] theorem State.answer_rSyncerr (d : Word) : (s.answer d).rSyncerr = s.rSyncerr := rfl
@[simp] theorem State.answer_aScore (d : Word) : (s.answer d).aScore = s.aScore := rfl
@[simp] theorem State.answer_aWorst (d : Word) : (s.answer d).aWorst = s.aWorst := rfl
@[simp] theorem State.answer_fFail (d : Word) : (s.answer d).fFail = s.fFail := rfl
@[simp] theorem State.answer_fValue (d : Word) : (s.answer d).fValue = s.fValue := rfl
@[simp] theorem State.answer_fScore (d : Word) : (s.answer d).fScore = s.fScore := rfl
@[simp] theorem State.answer_fWorst (d : Word) : (s.answer d).fWorst = s.fWorst := rfl
@[simp] theorem State.answer_schedule (d : Word) : (s.answer d).schedule = s.schedule := rfl
@[simp] theorem State.answer_rdata (d : Word) : (s.answer d).rdata = d := rfl
@[simp] theorem State.answer_freeReads (d : Word) : (s.answer d).freeReads = s.freeReads := rfl

@[simp] theorem State.answerFree_cfg (k : RegName) : (s.answerFree k).cfg = s.cfg := rfl
@[simp] theorem State.answerFree_smp (k : RegName) : (s.answerFree k).smp = s.smp := rfl
@[simp] theorem State.answerFree_running (k : RegName) : (s.answerFree k).running = s.running := rfl
@[simp] theorem State.answerFree_done (k : RegName) : (s.answerFree k).done = s.done := rfl
@[simp] theorem State.answerFree_err (k : RegName) : (s.answerFree k).err = s.err := rfl
@[simp] theorem State.answerFree_anyErr (k : RegName) : (s.answerFree k).anyErr = s.anyErr := rfl
@[simp] theorem State.answerFree_ovr (k : RegName) : (s.answerFree k).ovr = s.ovr := rfl
@[simp] theorem State.answerFree_rSym (k : RegName) : (s.answerFree k).rSym = s.rSym := rfl
@[simp] theorem State.answerFree_rScore (k : RegName) : (s.answerFree k).rScore = s.rScore := rfl
@[simp] theorem State.answerFree_rOffset (k : RegName) : (s.answerFree k).rOffset = s.rOffset := rfl
@[simp] theorem State.answerFree_rSyncerr (k : RegName) : (s.answerFree k).rSyncerr = s.rSyncerr := rfl
@[simp] theorem State.answerFree_aScore (k : RegName) : (s.answerFree k).aScore = s.aScore := rfl
@[simp] theorem State.answerFree_aWorst (k : RegName) : (s.answerFree k).aWorst = s.aWorst := rfl
@[simp] theorem State.answerFree_fFail (k : RegName) : (s.answerFree k).fFail = s.fFail := rfl
@[simp] theorem State.answerFree_fValue (k : RegName) : (s.answerFree k).fValue = s.fValue := rfl
@[simp] theorem State.answerFree_fScore (k : RegName) : (s.answerFree k).fScore = s.fScore := rfl
@[simp] theorem State.answerFree_fWorst (k : RegName) : (s.answerFree k).fWorst = s.fWorst := rfl
@[simp] theorem State.answerFree_schedule (k : RegName) : (s.answerFree k).schedule = s.schedule := rfl
@[simp] theorem State.answerFree_rdata (k : RegName) : (s.answerFree k).rdata = BitVec.ofNat 32 ((Config.freeRead s.freeReads).toNat % 2 ^ k.width) := rfl
@[simp] theorem State.answerFree_freeReads (k : RegName) : (s.answerFree k).freeReads = s.freeReads + 1 := rfl

@[simp] theorem State.fetched_cfg (w : Word) : (s.fetched w).cfg = s.cfg := rfl
@[simp] theorem State.fetched_smp (w : Word) : (s.fetched w).smp = s.smp := rfl
@[simp] theorem State.fetched_running (w : Word) : (s.fetched w).running = some w := rfl
@[simp] theorem State.fetched_done (w : Word) : (s.fetched w).done = false := rfl
@[simp] theorem State.fetched_err (w : Word) : (s.fetched w).err = .noError := rfl
@[simp] theorem State.fetched_anyErr (w : Word) : (s.fetched w).anyErr = s.anyErr := rfl
@[simp] theorem State.fetched_ovr (w : Word) : (s.fetched w).ovr = s.ovr := rfl
@[simp] theorem State.fetched_rSym (w : Word) : (s.fetched w).rSym = s.rSym := rfl
@[simp] theorem State.fetched_rScore (w : Word) : (s.fetched w).rScore = s.rScore := rfl
@[simp] theorem State.fetched_rOffset (w : Word) : (s.fetched w).rOffset = s.rOffset := rfl
@[simp] theorem State.fetched_rSyncerr (w : Word) : (s.fetched w).rSyncerr = s.rSyncerr := rfl
@[simp] theorem State.fetched_aScore (w : Word) : (s.fetched w).aScore = s.aScore := rfl
@[simp] theorem State.fetched_aWorst (w : Word) : (s.fetched w).aWorst = s.aWorst := rfl
@[simp] theorem State.fetched_fFail (w : Word) : (s.fetched w).fFail = s.fFail := rfl
@[simp] theorem State.fetched_fValue (w : Word) : (s.fetched w).fValue = s.fValue := rfl
@[simp] theorem State.fetched_fScore (w : Word) : (s.fetched w).fScore = s.fScore := rfl
@[simp] theorem State.fetched_fWorst (w : Word) : (s.fetched w).fWorst = s.fWorst := rfl
@[simp] theorem State.fetched_schedule (w : Word) : (s.fetched w).schedule = .engine :: s.schedule := rfl
@[simp] theorem State.fetched_rdata (w : Word) : (s.fetched w).rdata = s.rdata := rfl
@[simp] theorem State.fetched_freeReads (w : Word) : (s.fetched w).freeReads = s.freeReads := rfl

end Sys2Proof.Machine
end

