-- ==== Sys2Proof/Laws/Exec.lean ====
section
/-! SUPPORT. What each operation can do, once: one equation for each operation, and for all of them together that they
complete, and that an error changes STATUS alone. -/

namespace Sys2Proof.Machine

theorem exec_score (sym start : Nat) (s : State) :
    exec (.score sym start) s =
      match symbolOf? sym with
      | none => .next (s.raise .operand)
      | some y =>
        if start + s.cfg.sps ≤ s.cfg.n then
          .next ((s.setSymScore (symCode y) (score s.cfg s.samples start y)).complete)
        else .next (s.raise .bounds) := by
  simp only [exec, execScore, symOperand, spanOperand]
  cases symbolOf? sym with
  | none => rfl
  | some y =>
    by_cases h : start + s.cfg.sps ≤ s.cfg.n
    · simp only [if_pos h]; rfl
    · simp only [if_neg h]; rfl

theorem exec_classify (start : Nat) (s : State) :
    exec (.classify start) s =
      if start + s.cfg.sps ≤ s.cfg.n then
        .next ((s.setSymScore (symCode (classify s.cfg s.samples start).1) (classify s.cfg s.samples start).2).complete)
      else .next (s.raise .bounds) := by
  simp only [exec, execClassify, spanOperand]
  by_cases h : start + s.cfg.sps ≤ s.cfg.n
  · simp only [if_pos h]; rfl
  · simp only [if_neg h]; rfl

theorem exec_findframe (s : State) :
    exec .findframe s =
      .next ((s.setSync (findFrame s.cfg s.samples).1 (findFrame s.cfg s.samples).2).complete) := rfl

theorem exec_decfield (f start : Nat) (s : State) :
    exec (.decfield f start) s =
      match fieldOf? f with
      | none => .next (s.raise .operand)
      | some g =>
        if start + s.cfg.frameLen ≤ s.cfg.n then
          .next ((s.putField g (decodeField s.cfg s.samples start g)).complete)
        else .next (s.raise .bounds) := by
  simp only [exec, execDecfield, fieldOperand, frameOperand]
  cases fieldOf? f with
  | none => rfl
  | some g =>
    by_cases h : start + s.cfg.frameLen ≤ s.cfg.n
    · simp only [if_pos h]; rfl
    · simp only [if_neg h]; rfl

theorem exec_decframe (start : Nat) (s : State) :
    exec (.decframe start) s =
      if start + s.cfg.frameLen ≤ s.cfg.n then .next ((s.putFrame s.samples start).complete)
      else .next (s.raise .bounds) := by
  simp only [exec, execDecframe, frameOperand]
  by_cases h : start + s.cfg.frameLen ≤ s.cfg.n
  · simp only [if_pos h]; rfl
  · simp only [if_neg h]; rfl

theorem exec_decode (s : State) :
    exec .decode s =
      .next (((s.setSync (findFrame s.cfg s.samples).1 (findFrame s.cfg s.samples).2).putFrame s.samples
        (findFrame s.cfg s.samples).1).complete) := rfl

theorem fieldOf?_val (g : FieldIx) : fieldOf? g.val = some g := by simp [fieldOf?]

/-- An operation raises one error and writes nothing else, or commits a result: the engine is idle afterwards, and the
configuration, the sample space, OVR and the model's own bookkeeping are as before. -/
theorem exec_cases (i : Instr) (s : State) :
    (∃ e, e ≠ .noError ∧ exec i s = .next (s.raise e)) ∨
    (∃ t, exec i s = .next t ∧ t.running = none ∧ t.done = true ∧ t.err = .noError ∧ t.anyErr = s.anyErr ∧
      t.ovr = s.ovr ∧ t.cfg = s.cfg ∧ t.smp = s.smp ∧ t.schedule = s.schedule ∧ t.rdata = s.rdata ∧
      t.freeReads = s.freeReads) := by
  cases i with
  | score sym start =>
    rw [exec_score]
    cases symbolOf? sym with
    | none => exact .inl ⟨.operand, by decide, rfl⟩
    | some y =>
      by_cases h : start + s.cfg.sps ≤ s.cfg.n
      · simp only [if_pos h]
        exact .inr ⟨_, rfl, rfl, rfl, rfl, rfl, rfl, rfl, rfl, rfl, rfl, rfl⟩
      · simp only [if_neg h]
        exact .inl ⟨.bounds, by decide, rfl⟩
  | classify start =>
    rw [exec_classify]
    by_cases h : start + s.cfg.sps ≤ s.cfg.n
    · simp only [if_pos h]
      exact .inr ⟨_, rfl, rfl, rfl, rfl, rfl, rfl, rfl, rfl, rfl, rfl, rfl⟩
    · simp only [if_neg h]
      exact .inl ⟨.bounds, by decide, rfl⟩
  | findframe =>
    rw [exec_findframe]
    exact .inr ⟨_, rfl, rfl, rfl, rfl, rfl, rfl, rfl, rfl, rfl, rfl, rfl⟩
  | decfield f start =>
    rw [exec_decfield]
    cases fieldOf? f with
    | none => exact .inl ⟨.operand, by decide, rfl⟩
    | some g =>
      by_cases h : start + s.cfg.frameLen ≤ s.cfg.n
      · simp only [if_pos h]
        exact .inr ⟨_, rfl, rfl, rfl, rfl, rfl, rfl, rfl, rfl, rfl, rfl, rfl⟩
      · simp only [if_neg h]
        exact .inl ⟨.bounds, by decide, rfl⟩
  | decframe start =>
    rw [exec_decframe]
    by_cases h : start + s.cfg.frameLen ≤ s.cfg.n
    · simp only [if_pos h]
      exact .inr ⟨_, rfl, rfl, rfl, rfl, rfl, rfl, rfl, rfl, rfl, rfl, rfl⟩
    · simp only [if_neg h]
      exact .inl ⟨.bounds, by decide, rfl⟩
  | decode =>
    rw [exec_decode]
    exact .inr ⟨_, rfl, rfl, rfl, rfl, rfl, rfl, rfl, rfl, rfl, rfl, rfl⟩

/-- The engine's turn, by what runs. -/
theorem engineTurn_idle {s : State} (h : s.running = none) : engineTurn s = .next s := by simp [engineTurn, h]

theorem engineTurn_legal {s : State} {w : Word} {i : Instr} (h : s.running = some w) (hd : decode w = .ok i) :
    engineTurn s = exec i s := by simp [engineTurn, h, hd]

theorem engineTurn_illegal {s : State} {w : Word} {r : IllegalWord} (h : s.running = some w)
    (hd : decode w = .error r) : engineTurn s = .next (s.raise .illegal) := by simp [engineTurn, h, hd]

end Sys2Proof.Machine
end

