-- ==== Sys2Proof/Laws/Bus.lean ====
section
/-! SUPPORT. What an address selects, and what one step does, case by case. -/

namespace Sys2Proof.Machine

/-- The address of register `r` (R61). -/
theorem busTarget_register (c : Cfg) {r : Nat} (h : r < 64) : busTarget c (BitVec.ofNat 27 (4 * r)) = .reg r := by
  have ha : (BitVec.ofNat 27 (4 * r)).toNat = 4 * r := by
    rw [BitVec.toNat_ofNat]; exact Nat.mod_eq_of_lt (by omega)
  simp only [busTarget, ha]
  rw [if_pos (by omega)]
  congr 1
  omega

/-- The address of cell `i` (R61). -/
theorem busTarget_cell {c : Cfg} (hc : c.valid = true) {i : Nat} (h : i < c.n) :
    busTarget c (BitVec.ofNat 27 (0x4000000 + 4 * i)) = .cell i := by
  have hn := (Cfg.valid_bufsec hc).2
  have ha : (BitVec.ofNat 27 (0x4000000 + 4 * i)).toNat = 0x4000000 + 4 * i := by
    rw [BitVec.toNat_ofNat]; exact Nat.mod_eq_of_lt (by omega)
  simp only [busTarget, ha, sampleBase]
  rw [if_neg (by omega), if_pos (by omega)]
  congr 1
  omega

/-- A cell the bus selects lies in the sample space. -/
theorem busTarget_cell_lt {c : Cfg} {a : BusAddr} {i : Nat} (h : busTarget c a = .cell i) : i < c.n := by
  unfold busTarget at h
  by_cases h1 : a.toNat < 0x100
  · rw [if_pos h1] at h; cases h
  · rw [if_neg h1] at h
    by_cases h2 : sampleBase ≤ a.toNat ∧ a.toNat < sampleBase + 4 * c.n
    · rw [if_pos h2] at h
      injection h with h
      omega
    · rw [if_neg h2] at h; cases h

/-- Only register number 0 is `CMD` (R22). -/
theorem regOf_eq_cmd {r : Nat} : regOf r = .cmd ↔ r = 0 := by
  constructor
  · intro h
    unfold regOf at h
    split at h <;> try (first | rfl | cases h)
    split at h
    · cases h
    · split at h
      · cases h
      · split at h <;> cases h
  · rintro rfl; rfl

/-- What a host write can do: it is accepted as a command, dropped with OVR, stored in a cell of the space, or without
effect. -/
theorem busWrite_cases (s : State) (a : BusAddr) (d : Word) :
    (s.busWrite a d = s.accept d ∧ s.busy = false) ∨ (s.busWrite a d = s.dropWrite ∧ s.busy = true) ∨
      (∃ i, i < s.cfg.n ∧ s.busWrite a d = s.storeSample i d ∧ s.busy = false) ∨ s.busWrite a d = s := by
  unfold State.busWrite
  split
  · split
    · cases hb : s.busy <;> simp
    · simp
  · next i h =>
    have := busTarget_cell_lt h
    cases hb : s.busy
    · simp only [cond_false]
      exact .inr (.inr (.inl ⟨i, this, rfl, trivial⟩))
    · simp
  · simp

/-- What a host read can do: answer a value, or answer a free one. -/
theorem busRead_cases (s : State) (a : BusAddr) :
    (∃ d, s.busRead a = s.answer d) ∨ (∃ k, s.busRead a = s.answerFree k) := by
  unfold State.busRead
  split
  · next r h =>
    cases hb : (s.busy && (regOf r).isResult)
    · exact .inl ⟨_, rfl⟩
    · exact .inr ⟨_, rfl⟩
  · exact .inl ⟨_, rfl⟩
  · exact .inl ⟨_, rfl⟩

theorem ifAligned_next {a : BusAddr} {size : Nat} {t u : State} (h : ifAligned a size t = .next u) : u = t := by
  unfold ifAligned at h
  cases ha : alignedWord a size <;> simp only [ha, cond_true, cond_false] at h
  · cases h
  · injection h with h; exact h.symm

/-- What the engine's turn can do: nothing while idle, one operation, or ILLEGAL. -/
theorem engineTurn_cases (s : State) :
    (s.running = none ∧ engineTurn s = .next s) ∨
    (∃ w i, s.running = some w ∧ decode w = .ok i ∧ engineTurn s = exec i s) ∨
    (∃ w r, s.running = some w ∧ decode w = .error r ∧ engineTurn s = .next (s.raise .illegal)) := by
  cases hr : s.running with
  | none => exact .inl ⟨rfl, engineTurn_idle hr⟩
  | some w =>
    cases hd : decode w with
    | ok i => exact .inr (.inl ⟨w, i, rfl, hd, engineTurn_legal hr hd⟩)
    | error r => exact .inr (.inr ⟨w, r, rfl, hd, engineTurn_illegal hr hd⟩)

/-- What a step can do, once: the configuration is valid, and the turn is the engine's, a reset edge, a bus write or a bus
read, taken in the state without it. -/
theorem step_cases {s t : State} (h : step s = .next t) :
    s.cfg.valid = true ∧
    ((s.schedule = [] ∧ engineTurn s = .next t) ∨
     ∃ ts, let u : State := { s with schedule := ts }
      (s.schedule = .engine :: ts ∧ engineTurn u = .next t) ∨ (s.schedule = .rst :: ts ∧ t = u.rstEdge) ∨
      (∃ a size d, s.schedule = .write a size d :: ts ∧ alignedWord a size = true ∧ t = u.busWrite a d) ∨
      (∃ a size, s.schedule = .read a size :: ts ∧ alignedWord a size = true ∧ t = u.busRead a)) := by
  unfold step at h
  split at h
  · next hv =>
    refine ⟨hv, ?_⟩
    unfold nextTurn at h
    split at h
    · next hs => exact .inl ⟨hs, h⟩
    · next tn ts hs =>
      refine .inr ⟨ts, ?_⟩
      cases tn with
      | write a size d =>
        have ha : alignedWord a size = true := by
          cases ha : alignedWord a size
          · simp only [takeTurn, ifAligned, ha, cond_false] at h; cases h
          · rfl
        exact .inr (.inr (.inl ⟨a, size, d, hs, ha, ifAligned_next h⟩))
      | read a size =>
        have ha : alignedWord a size = true := by
          cases ha : alignedWord a size
          · simp only [takeTurn, ifAligned, ha, cond_false] at h; cases h
          · rfl
        exact .inr (.inr (.inr ⟨a, size, hs, ha, ifAligned_next h⟩))
      | rst =>
        injection h with h
        exact .inr (.inl ⟨hs, h.symm⟩)
      | engine => exact .inl ⟨hs, h⟩
  · cases h

end Sys2Proof.Machine
end

