-- ==== Sys2Proof/Laws/Fields.lean ====
section
/-! SUPPORT. The field register arrays and `F_FAIL`, read element by element after a write. -/

namespace Sys2Proof.Machine

@[simp] theorem fieldArray_get (r : FieldIx → Nat) (g : FieldIx) : (fieldArray r)[g] = BitVec.ofNat 16 (r g) := by
  fin_cases g <;> rfl

/-- A write of element `f` changes element `f` alone. -/
theorem set_get (v : Vector (BitVec 16) 7) (f g : FieldIx) (x : BitVec 16) :
    (v.set f x)[g] = if g = f then x else v[g] := by
  by_cases h : g = f
  · subst h; simp
  · have : f.val ≠ g.val := fun e => h (Fin.ext e.symm)
    simp [h, this]

/-- A write of bit `f` changes bit `f` alone. -/
theorem withFailBit_get (v : BitVec 7) (f g : FieldIx) (b : Bool) :
    (withFailBit v f b).getLsbD g = if g = f then b else v.getLsbD g := by
  have h1 : ∀ (f g : FieldIx), (1#7 <<< f.val).getLsbD g = decide (g = f) := by decide
  have hg : g.val < 7 := g.isLt
  cases b
  · by_cases h : g = f <;> simp only [withFailBit, cond_false, BitVec.getLsbD_and, BitVec.getLsbD_not, h1, h] <;> simp
  · by_cases h : g = f <;> simp only [withFailBit, cond_true, BitVec.getLsbD_or, h1, h] <;> simp

theorem failBits_get (r : FieldIx → Bool) (g : FieldIx) : (failBits r).getLsbD g = r g := by
  simp only [failBits, FieldIx.all, List.foldl_cons, List.foldl_nil, withFailBit_get]
  fin_cases g <;> simp

end Sys2Proof.Machine
end

