-- ==== Sys2Proof/Laws/Memory.lean ====
section
/-! SUPPORT. The laws of the sample space: read after write, the canonical form kept, and that the operation's view of it
(`State.samples`) reads as the cells do. -/

namespace Sys2Proof.Machine

/-- A write is read back, and every other cell keeps its bit. -/
theorem Memory.read?_write (m : Memory) (i j : Nat) (b : Sample) :
    (m.write i b).read? j = if j = i then some b else m.read? j := by
  induction m with
  | nil => simp [Memory.write, Memory.read?]
  | cons e m ih =>
    obtain ⟨k, v⟩ := e
    simp only [Memory.write]
    split
    · simp [Memory.read?]
    · split
      · next heq =>
        subst heq
        simp only [Memory.read?]
        split <;> rfl
      · next hne =>
        simp only [Memory.read?, ih]
        by_cases hji : j = i
        · subst hji; simp [hne]
        · simp [hji]

/-- The state's read of one cell after a host write. -/
theorem sample_write (s : State) (i j : Nat) (b : Sample) :
    State.sample { s with smp := s.smp.write i b } j = if j = i then b else s.sample j := by
  simp only [State.sample, Memory.read?_write]
  split <;> simp

/-- The head of a written list is the written cell or the old head. -/
theorem Memory.write_cons (m : Memory) (i : Nat) (b : Sample) :
    ∃ e t, m.write i b = e :: t ∧ (e.1 = i ∨ ∃ e' t', m = e' :: t' ∧ e.1 = e'.1) := by
  cases m with
  | nil => exact ⟨(i, b), [], rfl, .inl rfl⟩
  | cons e m =>
    obtain ⟨k, v⟩ := e
    simp only [Memory.write]
    split
    · exact ⟨_, _, rfl, .inl rfl⟩
    · split
      · exact ⟨_, _, rfl, .inl rfl⟩
      · exact ⟨_, _, rfl, .inr ⟨_, _, rfl, rfl⟩⟩

/-- A tail of a canonical list is canonical. -/
theorem Memory.wf_tail {e : Nat × Sample} {m : Memory} (h : Memory.wf (e :: m) = true) : Memory.wf m = true := by
  cases m with
  | nil => rfl
  | cons e' m =>
    simp only [Memory.wf, Bool.and_eq_true] at h
    exact h.2

/-- A write keeps the canonical form. -/
theorem Memory.wf_write {m : Memory} (i : Nat) (b : Sample) (h : m.wf = true) : (m.write i b).wf = true := by
  induction m with
  | nil => rfl
  | cons e m ih =>
    obtain ⟨k, v⟩ := e
    simp only [Memory.write]
    split
    · next hlt => simp [Memory.wf, hlt, h]
    · split
      · next heq =>
        subst heq
        cases m with
        | nil => rfl
        | cons e' m => simpa [Memory.wf] using h
      · next hlt hne =>
        have hm := ih (Memory.wf_tail h)
        obtain ⟨e, t, he, hd⟩ := Memory.write_cons m i b
        rw [he] at hm ⊢
        have hk : k < e.1 := by
          rcases hd with hd | ⟨e', t', rfl, hd⟩
          · omega
          · simp only [Memory.wf, Bool.and_eq_true, decide_eq_true_eq] at h
            omega
        simp [Memory.wf, hk, hm]

/-- A write to a cell of the space lists only cells of the space. -/
theorem Memory.inBounds_write {m : Memory} {n i : Nat} (b : Sample) (hi : i < n) (h : m.inBounds n = true) :
    (m.write i b).inBounds n = true := by
  induction m with
  | nil => simp [Memory.write, Memory.inBounds, hi]
  | cons e m ih =>
    obtain ⟨k, v⟩ := e
    simp only [Memory.inBounds, List.all_cons, Bool.and_eq_true, decide_eq_true_eq] at h ih
    simp only [Memory.write]
    split
    · simp [Memory.inBounds, hi, h]
    · split
      · simpa [Memory.inBounds, hi] using h.2
      · simpa [Memory.inBounds, h.1] using ih h.2

@[simp] theorem forced_eq {α : Type} (n : Nat) (k : Nat → α) : forced n k = k n := by cases n <;> rfl

theorem testBit_or_one_shift (w i j : Nat) : (w ||| 1 <<< i).testBit j = (w.testBit j || decide (j = i)) := by
  rw [Nat.testBit_or, Nat.one_shiftLeft, Nat.testBit_two_pow]
  congr 1
  simp [eq_comm]

/-- The collected bit maps read as the list does, the cells collected before first. -/
theorem Memory.at_collect (m : Memory) (w l i : Nat) (hwl : ∀ j, w.testBit j = false → l.testBit j = false) :
    (m.collect w l).at i =
      bif w.testBit i then l.testBit i else (m.read? i).getD (Config.freeSample i) := by
  induction m generalizing w l with
  | nil => simp [Memory.collect, Samples.at, Memory.read?]
  | cons e m ih =>
    obtain ⟨k, b⟩ := e
    cases hk : w.testBit k with
    | true =>
      simp only [Memory.collect, hk, cond_true, ih w l hwl, Memory.read?]
      by_cases hik : i = k
      · subst hik; simp [hk]
      · simp [hik]
    | false =>
      have hl := hwl k hk
      simp only [Memory.collect, hk, cond_false, forced_eq]
      rw [ih]
      · by_cases hik : i = k
        · subst hik
          cases b <;> simp only [cond_true, cond_false, testBit_or_one_shift, Memory.read?, hl, hk] <;> simp
        · cases b <;> simp only [cond_true, cond_false, testBit_or_one_shift, Memory.read?, hik] <;> simp
      · intro j hj
        rw [testBit_or_one_shift] at hj
        simp only [Bool.or_eq_false_iff, decide_eq_false_iff_not] at hj
        cases b
        · simpa using hwl j hj.1
        · simp only [cond_true, testBit_or_one_shift, hwl j hj.1, hj.2]; simp

/-- What an operation reads at `i` is the bit cell `i` holds (R67, R74). -/
@[simp] theorem samples_at (s : State) (i : Nat) : s.samples.at i = s.sample i := by
  rw [State.samples, Memory.at_collect _ _ _ _ (by simp)]
  simp [State.sample]

end Sys2Proof.Machine
end

