-- ==== Sys2Proof/Laws/Matcher.lean ====
section
/-! SUPPORT. The sums of the Symbol Matcher as sums of Mathlib, their bound, and what a score depends on. -/

namespace Sys2Proof.Machine

theorem sumTo_eq_sum (f : Nat → Nat) (n : Nat) : sumTo f n = ∑ i ∈ Finset.range n, f i := by
  induction n with
  | zero => rfl
  | succ n ih => rw [sumTo, ih, Finset.sum_range_succ]

theorem sumTo_congr {f g : Nat → Nat} {n : Nat} (h : ∀ i, i < n → f i = g i) : sumTo f n = sumTo g n := by
  rw [sumTo_eq_sum, sumTo_eq_sum]
  exact Finset.sum_congr rfl fun i hi => h i (Finset.mem_range.1 hi)

/-- The score as a sum over the cells of the state. -/
theorem score_samples (c : Cfg) (s : State) (st : Nat) (y : Symbol) :
    score c s.samples st y = ∑ i ∈ Finset.range c.sps, (s.sample (st + i) ^^ tmpl c y i).toNat := by
  simp only [score, sumTo_eq_sum, samples_at]

/-- No score exceeds SPS: one count for each sample of the span. -/
theorem score_le (c : Cfg) (S : Samples) (st : Nat) (y : Symbol) : score c S st y ≤ c.sps := by
  rw [score, sumTo_eq_sum]
  calc _ ≤ ∑ _i ∈ Finset.range c.sps, 1 := Finset.sum_le_sum fun i _ => Bool.toNat_le _
    _ = c.sps := by simp

/-- A score depends on the cells of its span only. -/
theorem score_congr {c : Cfg} {S T : Samples} {st : Nat} (y : Symbol)
    (h : ∀ k, st ≤ k → k < st + c.sps → S.at k = T.at k) : score c S st y = score c T st y :=
  sumTo_congr fun i hi => by rw [h (st + i) (by omega) (by omega)]

/-- The score of the best symbol is one of the three scores: that of the symbol returned. -/
theorem classify_score (c : Cfg) (S : Samples) (st : Nat) :
    (classify c S st).2 = score c S st (classify c S st).1 := by
  simp only [classify, better]
  split <;> split <;> rfl

theorem classify_congr {c : Cfg} {S T : Samples} {st : Nat}
    (h : ∀ k, st ≤ k → k < st + c.sps → S.at k = T.at k) : classify c S st = classify c T st := by
  simp only [classify, score_congr _ h]

theorem symCode_lt (y : Symbol) : symCode y < 3 := by cases y <;> decide

@[simp] theorem symbolOf?_symCode (y : Symbol) : symbolOf? (symCode y) = some y := by cases y <;> rfl

end Sys2Proof.Machine
end

