-- ==== Sys2Proof/Laws/PerInstr.lean ====
section
/-! SUPPORT. The families of facts stated for each instruction as syntax. -/

namespace Sys2Proof.Laws

/-- The `op` value of an instruction's row (R95). -/
def opNumber : Instr → Nat
  | .score _ _ => 1
  | .classify _ => 2
  | .findframe => 3
  | .decfield _ _ => 4
  | .decframe _ => 5
  | .decode => 6

end Sys2Proof.Laws

/-- The encoded word of a well-formed instruction carries its row's `op` in bits 31:28 (R92, R95). -/
def Sys2Proof.Laws.EncodedOp.Statement (i : Sys2Proof.Instr) : Prop :=
  i.wf = true → Sys2Proof.bits (Sys2Proof.encode i) 31 28 = Sys2Proof.Laws.opNumber i

open Sys2Proof in
theorem Sys2Proof.Laws.EncodedOp.score (sym start : Nat) : Sys2Proof.Laws.EncodedOp.Statement (.score sym start) := by
  intro h
  simp only [Instr.wf, symFits, startFits, Bool.and_eq_true, decide_eq_true_eq] at h
  simp only [bits, encode, Laws.opNumber, BitVec.toNat_ofNat, Nat.shiftLeft_eq, Nat.shiftRight_eq_div_pow]
  omega

open Sys2Proof in
theorem Sys2Proof.Laws.EncodedOp.classify (start : Nat) : Sys2Proof.Laws.EncodedOp.Statement (.classify start) := by
  intro h
  simp only [Instr.wf, startFits, decide_eq_true_eq] at h
  simp only [bits, encode, Laws.opNumber, BitVec.toNat_ofNat, Nat.shiftRight_eq_div_pow]
  omega

open Sys2Proof in
theorem Sys2Proof.Laws.EncodedOp.findframe : Sys2Proof.Laws.EncodedOp.Statement .findframe := fun _ => by decide

open Sys2Proof in
theorem Sys2Proof.Laws.EncodedOp.decfield (f start : Nat) : Sys2Proof.Laws.EncodedOp.Statement (.decfield f start) := by
  intro h
  simp only [Instr.wf, fieldFits, startFits, Bool.and_eq_true, decide_eq_true_eq] at h
  simp only [bits, encode, Laws.opNumber, BitVec.toNat_ofNat, Nat.shiftLeft_eq, Nat.shiftRight_eq_div_pow]
  omega

open Sys2Proof in
theorem Sys2Proof.Laws.EncodedOp.decframe (start : Nat) : Sys2Proof.Laws.EncodedOp.Statement (.decframe start) := by
  intro h
  simp only [Instr.wf, startFits, decide_eq_true_eq] at h
  simp only [bits, encode, Laws.opNumber, BitVec.toNat_ofNat, Nat.shiftRight_eq_div_pow]
  omega

open Sys2Proof in
theorem Sys2Proof.Laws.EncodedOp.decode : Sys2Proof.Laws.EncodedOp.Statement .decode := fun _ => by decide
end

