-- ==== Sys2Proof/Tests/Slice0.lean ====
section
/-! SUPPORT. Tests of the model on fixed values, and for each statement a concrete state that meets its hypotheses. Expected
results are those of spec/95_test_vectors.md or worked by hand from the rules. -/

namespace Sys2Proof.Tests

open Sys2Proof Sys2Proof.Machine

/-! ### Helpers -/

/-- The bits of a list written to the cells from `lo` on. -/
def cellsFrom : Nat → List Bool → Memory
  | _, [] => []
  | lo, b :: bs => (lo, b) :: forced (lo + 1) fun k => cellsFrom k bs

/-- Runs of equal bits: `[(14, false), (26, true)]` is the spec's `0^14 1^26`. -/
def runs : List (Nat × Bool) → List Bool
  | [] => []
  | (n, b) :: rest => List.replicate n b ++ runs rest

/-- WCE-1 after reset with a span written at `lo`. -/
def withSpan (lo : Nat) (bs : List Bool) : State := { State.reset with smp := cellsFrom lo bs }

/-- A smaller valid configuration: 10 samples a second, N = 1200, FRAMELEN = LASTCAND = 600. -/
def cfg10 : Cfg := { Cfg.wce1 with sps := 10 }

/-- The template of a symbol at SPS = 10 (R121). -/
def wave10 (y : Symbol) : List Bool :=
  match y with
  | .zero => runs [(2, false), (8, true)]
  | .one => runs [(5, false), (5, true)]
  | .marker => runs [(8, false), (2, true)]

/-- The waveforms of some positions of a frame at `fs`, SPS = 10. -/
def frame10 (fs : Nat) : List (Nat × Symbol) → Memory
  | [] => []
  | (p, y) :: rest => forced (fs + p * 10) (fun k => cellsFrom k (wave10 y)) ++ frame10 fs rest

def state10 (m : Memory) : State := { State.resetOf cfg10 with smp := m }

/-- The MINUTES positions of frame A (minute 34). -/
def minutes34 : List (Nat × Symbol) :=
  [(1, .zero), (2, .one), (3, .one), (5, .zero), (6, .one), (7, .zero), (8, .zero)]

/-- Symbols of consecutive positions from `p` on, as the spec's strings write them: `M`, `0` and `1`. -/
def positions : Nat → List Char → List (Nat × Symbol)
  | _, [] => []
  | p, ch :: rest =>
    (p, if ch = 'M' then Symbol.marker else if ch = '1' then Symbol.one else Symbol.zero) :: positions (p + 1) rest

/-- symsA: frame A of the spec (hours 12, minutes 34, day 315, year 26). -/
def frameA : List (Nat × Symbol) := positions 0 "M01100100M000100010M001100001M010100000M000000010M011000000M".toList

/-- Frame A at SPS = 10, planted at 7 in a sample space of zeros. -/
def planted : State :=
  state10 (cellsFrom 0 (List.replicate 7 false) ++ (frame10 7 frameA ++ cellsFrom 607 (List.replicate 593 false)))

/-- One command, accepted and run. -/
def run1 (s : State) (w : Nat) : Option State :=
  match step (s.withFetchWord 32 w) with
  | .next t => some t
  | .fault _ => none
  | .refused _ => none

/-- One command answers a next state that passes a check. -/
def passes (s : State) (w : Nat) (p : State → Bool) : Bool :=
  match step (s.withFetchWord 32 w) with
  | .next t => p t
  | .fault _ => false
  | .refused _ => false

/-- `k` steps. -/
def runK (k : Nat) (s : State) : Option State :=
  match Sys2Proof.core.run k s with
  | .next t => some t
  | .fault _ => none
  | .refused _ => none

/-! ### Well-formed and ill-formed instructions -/

theorem test_wf_largest : (Instr.score 3 0xFFFFFF).wf = true ∧ (Instr.decfield 7 0xFFFFFF).wf = true := by decide
theorem test_wf_sym : (Instr.score 4 0).wf = false := by decide
theorem test_wf_score_start : (Instr.score 0 0x1000000).wf = false := by decide
theorem test_wf_classify_start : (Instr.classify 0x1000000).wf = false := by decide
theorem test_wf_field : (Instr.decfield 8 0).wf = false := by decide
theorem test_wf_decfield_start : (Instr.decfield 0 0x1000000).wf = false := by decide
theorem test_wf_decframe_start : (Instr.decframe 0x1000000).wf = false := by decide

/-! ### Configurations: WCE-1 is valid; each constraint of R6 refuses a record that breaks it -/

theorem test_cfg_wce1 : Cfg.wce1.valid = true := by decide
theorem test_cfg10 : cfg10.valid = true := by decide
theorem test_cfg_sps_not_multiple : Cfg.valid { Cfg.wce1 with sps := 45 } = false := by decide
theorem test_cfg_sps_too_large : Cfg.valid { Cfg.wce1 with sps := 3650 } = false := by decide
theorem test_cfg_bufsec : Cfg.valid { Cfg.wce1 with bufsec := 119 } = false := by decide
theorem test_cfg_n_too_large : Cfg.valid { Cfg.wce1 with bufsec := 419431 } = false := by decide
theorem test_cfg_fixmap_position :
    Cfg.valid { Cfg.wce1 with fixmap := ⟨60, .zero⟩ :: wce1Fixmap.tail } = false := by decide
theorem test_cfg_fixmap_repeated :
    Cfg.valid { Cfg.wce1 with fixmap := ⟨4, .marker⟩ :: wce1Fixmap.tail } = false := by decide
theorem test_cfg_fixmap_one : Cfg.valid { Cfg.wce1 with fixmap := ⟨0, .one⟩ :: wce1Fixmap.tail } = false := by decide
theorem test_cfg_field_empty : Cfg.valid { Cfg.wce1 with field := wce1Field.set 4 [] } = false := by decide
theorem test_cfg_field_weight : Cfg.valid { Cfg.wce1 with field := wce1Field.set 4 [⟨55, 0⟩] } = false := by decide
theorem test_cfg_failure_score : Cfg.valid { Cfg.wce1 with failureScore := 400 } = false := by decide
theorem test_cfg_tiers : Cfg.valid { Cfg.wce1 with tierOkLt := 11 } = false := by decide
/-- R7: "With the defaults: N = 4800, FRAMELEN = 2400, LOWLEN = 8, 20, 32, LASTCAND = 2400". -/
theorem test_cfg_derived :
    (Cfg.wce1.n, Cfg.wce1.frameLen, Cfg.wce1.lastCand) = (4800, 2400, 2400) ∧
    (Cfg.wce1.lowLen .zero, Cfg.wce1.lowLen .one, Cfg.wce1.lowLen .marker) = (8, 20, 32) := by decide
/-- R10: the largest value of each field. -/
theorem test_cfg_largest_values :
    FieldIx.all.map (fun f => weightSum wce1Field[f]) = [45, 85, 465, 165, 1, 1, 3] := by decide

/-! ### Decoding: words written out bit by bit from R92 and R95 -/

/-- `op` 0001, `sel` 0010 (MARKER), `start` 4760. -/
theorem test_decode_score : decodeTableWord 32 0b00010010000000000001001010011000 = some (.score 2 4760) := by decide
/-- `op` 0010, `sel` 0000, `start` 457. -/
theorem test_decode_classify : decodeTableWord 32 0b00100000000000000000000111001001 = some (.classify 457) := by decide
/-- `op` 0011, all else 0. -/
theorem test_decode_findframe : decodeTableWord 32 0b00110000000000000000000000000000 = some .findframe := by decide
/-- `op` 0100, `sel` 0110 (DST), `start` 137. -/
theorem test_decode_decfield : decodeTableWord 32 0b01000110000000000000000010001001 = some (.decfield 6 137) := by decide
/-- `op` 0101, `sel` 0000, `start` 2400. -/
theorem test_decode_decframe : decodeTableWord 32 0b01010000000000000000100101100000 = some (.decframe 2400) := by decide
/-- `op` 0110, all else 0. -/
theorem test_decode_decode : decodeTableWord 32 0b01100000000000000000000000000000 = some .decode := by decide
/-- R96: the highest `op`, and a set bit just outside each row's operand fields. -/
theorem test_decode_illegal :
    [0xF0000000, 0x14000000, 0x18000000, 0x21000000, 0x30000001, 0x48000000, 0x51000000, 0x68000000].map
      (decodeTableWord 32) = List.replicate 8 none := by decide
theorem test_encode_words :
    [encode (.score 1 4761), encode (.classify 80), encode .findframe, encode (.decfield 4 2401), encode (.decframe 137),
      encode .decode] = [0x11001299#32, 0x20000050#32, 0x30000000#32, 0x44000961#32, 0x50000089#32, 0x60000000#32] := by
  decide

/-! ### The assembler (R99) -/

theorem test_asm_score : assemble "SCORE 4760, MARKER ; last second".toList = .word 0x12001298#32 := by decide
theorem test_asm_decfield : assemble "  DECFIELD 0x89 , MINUTES".toList = .word 0x41000089#32 := by decide
theorem test_asm_number : assemble "SCORE 0xFFFFFF, 3".toList = .word 0x13FFFFFF#32 := by decide
theorem test_asm_word : assemble ".word 0x28000000".toList = .word 0x28000000#32 := by decide
theorem test_asm_rejects : assemble "CLASSIFY 16777216".toList = .rejected ∧ assemble "; only".toList = .blank := by decide

/-! ### The sample space -/

/-- A write in the middle, a write over a cell, and a write at the end keep the order (R70). -/
theorem test_mem_order :
    ((((Memory.write [] 5 true).write 2 false).write 9 true).write 5 false) = [(2, false), (5, false), (9, true)] := by
  decide
theorem test_mem_wf : Memory.wf [(2, false), (5, true)] = true ∧ Memory.wf [(5, true), (2, false)] = false := by decide

/-! ### SCORE and CLASSIFY (95_test_vectors.md, section 2) -/

/-- `SCORE 0, ZERO` on V-S1 (all zeros): 32, STATUS 0x02. -/
theorem test_score_zero :
    (run1 (withSpan 0 (runs [(40, false)])) 0x10000000).map (fun t => (t.rSym.toNat, t.rScore.toNat, t.statusWord)) =
      some (0, 32, 2#32) := by decide
/-- `SCORE 0, 3`: OPERAND, STATUS 0x2A. -/
theorem test_score_operand : (run1 State.reset 0x13000000).map State.statusWord = some 0x2A#32 := by decide
/-- V-S8 `0^8 1^12 0^12 1^8`: ZERO = MARKER < ONE, ZERO wins with 12. -/
theorem test_classify_tie :
    (run1 (withSpan 0 (runs [(8, false), (12, true), (12, false), (8, true)])) 0x20000000).map
      (fun t => (t.rSym.toNat, t.rScore.toNat)) = some (0, 12) := by decide
/-- V-S6 `0^14 1^26` at 457, no multiple of SPS (R64): ONE = ZERO < MARKER, ONE wins with 6. -/
theorem test_classify_unaligned :
    (run1 (withSpan 457 (runs [(14, false), (26, true)])) 0x200001C9).map
      (fun t => (t.rSym.toNat, t.rScore.toNat)) = some (1, 6) := by decide
/-- R123: "`start = N − SPS` is the last legal start"; one more raises BOUNDS (P5, step 8: STATUS 0x2E). -/
theorem test_score_bounds :
    (run1 (withSpan 4760 (runs [(32, false), (8, true)])) 0x12001298).map State.statusWord = some 2#32 ∧
    (run1 State.reset 0x11001299).map State.statusWord = some 0x2E#32 := by decide

/-! ### FINDFRAME, DECFIELD, DECFRAME, DECODE, at SPS = 10 -/

/-- A frame planted at 7 is found there with total 0 (R151(c)). -/
theorem test_findframe : passes planted 0x30000000 (fun t => t.rOffset == 7 && t.rSyncerr == 0) = true := by
  decide +kernel
/-- The frame found is decoded: 12:34, day 315, year 26, every score 0 (R171's example). -/
theorem test_decode :
    passes planted 0x60000000 (fun t => t.rOffset == 7 && t.fValue == #v[12, 34, 315, 26, 0, 0, 0] && t.fFail == 0 &&
      t.aScore == 0 && t.aWorst == 0) = true := by decide +kernel
/-- `DECFIELD 7, MINUTES` on the seven MINUTES spans alone: 34 (R162's example). -/
theorem test_decfield :
    passes (state10 (frame10 7 minutes34)) 0x41000007
      (fun t => t.fValue == #v[0, 34, 0, 0, 0, 0, 0] && t.fFail == 0 && t.statusWord == 2) = true := by decide +kernel
/-- A MARKER at a MINUTES position fails the field, value 0, FAILURE_SCORE, SPS, and is no error (R164, R208). -/
theorem test_decfield_fails :
    passes (state10 (frame10 7 ((1, .marker) :: minutes34.tail))) 0x41000007
      (fun t => t.fValue[1] == 0 && t.fScore[1] == 65535 && t.fWorst[1] == 10 && t.fFail == 2 && t.statusWord == 2) =
      true := by decide +kernel
/-- `DECFRAME 7`: seven fields and the aggregates; R_OFFSET is not written. -/
theorem test_decframe :
    passes planted 0x50000007
      (fun t => t.fValue == #v[12, 34, 315, 26, 0, 0, 0] && t.aScore == 0 && t.rOffset == 0) = true := by decide +kernel
/-- An all-zero frame: each position is a MARKER, all seven fields fail: A_SCORE = 7 × FAILURE_SCORE, F_FAIL = 0x7F (R171). -/
theorem test_decframe_all_fail :
    passes (state10 (cellsFrom 0 (List.replicate 600 false))) 0x50000000
      (fun t => t.aScore == 458745 && t.aWorst == 10 && t.fFail == 0x7F) = true := by decide +kernel

/-! ### Errors, acceptance, the bus -/

/-- P5 step 2, from reset: `.word 0x00000000` is ILLEGAL, STATUS 0x26. -/
theorem test_illegal : (run1 State.reset 0).map State.statusWord = some 0x26#32 := by decide
/-- The next command clears ERR and keeps ANYERR (R207; P5: STATUS 0x22). -/
theorem test_anyerr_sticky :
    ((run1 State.reset 0).bind fun t => run1 { t with smp := cellsFrom 0 (runs [(40, false)]) } 0x20000000).map
      State.statusWord = some 0x22#32 := by decide
/-- The host writes cell 3, then reads it; then issues a command, and a further write is dropped with OVR (R70, R71, R241). -/
theorem test_bus_sample :
    (runK 2 { State.reset with schedule := [writeCell 3 true, .read 0x400000C#27 4] }).map (fun t => (t.rdata, t.smp)) =
      some (1#32, [(3, true)]) := by decide
theorem test_bus_busy :
    (runK 3 { State.reset with schedule := [issue 0x20000000#32, writeCell 3 true, readRegister 1] }).map
      (fun t => (t.rdata, t.smp)) = some (0x41#32, []) := by decide
/-- R62: a halfword access is refused. -/
theorem test_bus_halfword :
    (match step { State.reset with schedule := [.read 0x4#27 2] } with
      | .refused .notAlignedWord => true
      | _ => false) = true := by decide
/-- R230: a reset edge while busy abandons the operation and keeps the samples. -/
theorem test_reset_edge :
    runK 3 { State.reset with schedule := [writeCell 3 true, issue 0x20000000#32, .rst] } =
      some { State.reset with smp := [(3, true)] } := by decide
/-- A host read of R_OFFSET and of F_WORST[6] answers what they hold (R22). -/
theorem test_bus_read_registers :
    [readRegister 4, readRegister 38].map (fun t =>
        (runK 1 { State.reset with rOffset := 137, fWorst := State.reset.fWorst.set 6 28, schedule := [t] }).map
          State.rdata) = [some 137#32, some 28#32] := by decide
/-- CFG_SPS, CFG_N, CFG_FAILSCORE (R35). -/
theorem test_cfg_registers :
    [regOf 40, regOf 41, regOf 42].map State.reset.regValue = [40#32, 4800#32, 65535#32] := by decide

/-! ### The host's functions (P6) -/

theorem test_calendar : dayOfYearToMonthDay 315 false = .date 11 11 ∧ dayOfYearToMonthDay 465 false = .invalidInput := by
  decide
theorem test_reliability : [0, 6, 7, 9, 10, 40].map (reliability Cfg.wce1) =
    [.likelyOk, .likelyOk, .notReliable, .notReliable, .probablyBad, .probablyBad] := by decide

/-! ### Witnesses: a concrete state and operands that meet the hypotheses of each statement, clause by clause, at the ends
of each range -/

/-- WCE-1 idle with some turns to come. -/
def idleWith (ts : List Turn) : State := { State.reset with schedule := ts }

/-- WCE-1 with a command accepted and some turns to come. -/
def busyWith (w : Word) (ts : List Turn) : State := { State.reset with running := some w, schedule := ts }

/-- The template of a symbol at SPS = 40, from the table of R121. -/
def wave40 (y : Symbol) : List Bool :=
  match y with
  | .zero => runs [(8, false), (32, true)]
  | .one => runs [(20, false), (20, true)]
  | .marker => runs [(32, false), (8, true)]

/-- The MINUTES spans of frame A at 137, WCE-1. -/
def minutesAt137 : State :=
  { State.reset with
    smp := cellsFrom 177 (wave40 .zero) ++ (cellsFrom 217 (wave40 .one) ++ (cellsFrom 257 (wave40 .one) ++
      (cellsFrom 337 (wave40 .zero) ++ (cellsFrom 377 (wave40 .one) ++ (cellsFrom 417 (wave40 .zero) ++
      cellsFrom 457 (wave40 .zero)))))) }

/-- An answer of `exec` or `step` that is a next state. -/
def isNext (o : Host.Outcome State Fault Refusal) : Bool :=
  match o with
  | .next _ => true
  | .fault _ => false
  | .refused _ => false

theorem exists_next {o : Host.Outcome State Fault Refusal} (h : isNext o = true) : ∃ t, o = .next t := by
  cases o with
  | next t => exact ⟨t, rfl⟩
  | fault r => cases r
  | refused r => cases h

theorem witness_DecodeEncodeRoundTrip :
    (Instr.score 3 0xFFFFFF).wf = true ∧ (Instr.decfield 7 0xFFFFFF).wf = true ∧ (Instr.classify 0).wf = true ∧
      decode 0x13FFFFFF#32 = .ok (.score 3 0xFFFFFF) := by decide
theorem witness_AssembledLineIsTheWord : decode 0x47FFFFFF#32 = .ok (.decfield 7 0xFFFFFF) := by decide
theorem witness_OneRowMatchesOrWordIsIllegal : Op.selects .score 0x13FFFFFF#32 = true := by decide
theorem witness_StepRunsDecodedInstruction :
    (busyWith 0x30000000#32 []).cfg.valid = true ∧ (busyWith 0x30000000#32 []).running = some 0x30000000#32 ∧
      decode 0x30000000#32 = .ok .findframe ∧ (busyWith 0x30000000#32 []).schedule = [] ∧
      (busyWith 0x30000000#32 [.engine, .rst]).schedule = .engine :: [.rst] ∧
      decodeTableWord 32 0x30000000 = some .findframe := by decide
theorem witness_StepOnIllegalWordRaisesIllegal :
    (busyWith 0x30000001#32 []).cfg.valid = true ∧ (busyWith 0x30000001#32 []).running = some 0x30000001#32 ∧
      decode 0x30000001#32 = .error .operandsNotZero ∧ (busyWith 0x30000001#32 []).schedule = [] ∧
      (busyWith 0x30000001#32 [.engine, .rst]).schedule = .engine :: [.rst] ∧
      decodeTableWord 32 0x30000001 = none := by decide
theorem witness_StepIsRefusedExactlyWhen :
    (State.resetOf { Cfg.wce1 with sps := 45 }).cfg.valid = false ∧
      ((idleWith [.read 0#27 2]).cfg.valid = true ∧ Turn.meaningful (.read 0#27 2) = false ∧
        Turn.meaningful (.write 2#27 4 0#32) = false) ∧
      ((idleWith [.rst]).cfg.valid = true ∧ Turn.meaningful .rst = true) := by decide
theorem witness_ResetStateReadsAsSpecified : Cfg.wce1.valid = true ∧ cfg10.valid = true := by decide
theorem witness_ResetEdgeClearsAllButSamples :
    (busyWith 0x30000000#32 [.rst]).cfg.valid = true ∧ (busyWith 0x30000000#32 [.rst]).schedule = .rst :: [] := by decide
theorem reset_inv : Inv State.reset where
  cfgValid := by decide
  memWf := by decide
  memInBounds := by decide
  notBusyAndDone := by decide
  errOnlyWhenDone := by decide
  errIsRecorded := by decide
  symLegal := by decide
  scoreInRange := by decide
  offsetInRange := by decide
  syncerrInRange := by decide
  aScoreInRange := by decide
  aWorstInRange := by decide
  fieldsOk := by
    intro f
    have h : (State.reset.fFail.getLsbD f) = false := by fin_cases f <;> rfl
    simp only [FieldRegsOk, h]
    fin_cases f <;> decide
/-- The turns to come are no part of the invariant. -/
theorem idleWith_inv (ts : List Turn) : Inv (idleWith ts) where
  cfgValid := reset_inv.cfgValid
  memWf := reset_inv.memWf
  memInBounds := reset_inv.memInBounds
  notBusyAndDone := reset_inv.notBusyAndDone
  errOnlyWhenDone := reset_inv.errOnlyWhenDone
  errIsRecorded := reset_inv.errIsRecorded
  symLegal := reset_inv.symLegal
  scoreInRange := reset_inv.scoreInRange
  offsetInRange := reset_inv.offsetInRange
  syncerrInRange := reset_inv.syncerrInRange
  aScoreInRange := reset_inv.aScoreInRange
  aWorstInRange := reset_inv.aWorstInRange
  fieldsOk := reset_inv.fieldsOk
theorem witness_StepKeepsTheRunInvariant : Inv State.reset ∧ ∃ t, step State.reset = .next t :=
  ⟨reset_inv, exists_next (by decide)⟩
theorem witness_ConfigurationNeverChanges : ∃ t, step (busyWith 0x20000000#32 []) = .next t := exists_next (by decide)
theorem witness_SamplesDoNotChangeWhileBusy :
    (busyWith 0x20000000#32 [writeCell 0 true]).busy = true ∧ 0 < (busyWith 0x20000000#32 [writeCell 0 true]).cfg.n ∧
      writeCell 0 true = .write (BitVec.ofNat 27 (0x4000000 + 4 * 0)) 4 1#32 ∧
      ∃ t, step (busyWith 0x20000000#32 [writeCell 0 true]) = .next t :=
  ⟨by decide, by decide, by decide, exists_next (by decide)⟩
theorem witness_BusyAlwaysEnds :
    (busyWith 0x60000000#32 [writeCell 0 true, readRegister 1]).cfg.valid = true ∧
      (busyWith 0x60000000#32 [writeCell 0 true, readRegister 1]).schedule.all Turn.meaningful = true := by decide
theorem witness_TemplatesAreLowThenHigh :
    Cfg.wce1.sps = 40 ∧ 7 < Cfg.wce1.lowLen .zero ∧ Cfg.wce1.lowLen .zero ≤ 8 := by decide
/-- The last legal start, and a second word for the first one. -/
theorem witness_spanFits :
    State.reset.cfg.valid = true ∧ 4760 + State.reset.cfg.sps ≤ State.reset.cfg.n ∧
      0 + State.reset.cfg.sps ≤ State.reset.cfg.n ∧ State.reset.cfg.n < 4761 + State.reset.cfg.sps := by decide
theorem witness_ScoreCountsDisagreements :
    State.reset.cfg.valid = true ∧ 4760 + State.reset.cfg.sps ≤ State.reset.cfg.n := by decide
/-- A span that is a template, one that is its complement, and a sample of each that a change sets right or wrong. -/
theorem witness_ScoreLawsOfR124 :
    (state10 (cellsFrom 0 (wave10 .one))).cfg.valid = true ∧ spanIs (state10 (cellsFrom 0 (wave10 .one))) 0 .one ∧
      (∀ i, i < 10 → (state10 (cellsFrom 0 ((wave10 .one).map (!·)))).sample (0 + i) ≠ tmpl cfg10 .one i) ∧
      (9 < cfg10.sps ∧ !(state10 (cellsFrom 0 (wave10 .one))).sample (0 + 9) ≠ tmpl cfg10 .one 9) ∧
      (0 < cfg10.sps ∧ !(state10 (cellsFrom 0 (wave10 .one))).sample (0 + 0) = tmpl cfg10 .marker 0 ∨
        !(state10 (cellsFrom 0 (wave10 .one))).sample (0 + 5) = tmpl cfg10 .marker 5) ∧
      State.reset.cfg.sps = 40 := by
  unfold spanIs
  decide
theorem witness_ScoreOperation :
    (State.reset.cfg.valid = true ∧ 4760 + State.reset.cfg.sps ≤ State.reset.cfg.n) ∧
      State.reset.cfg.n < 4761 + State.reset.cfg.sps ∧
      ((withSpan 0 (runs [(40, false)])).cfg = Cfg.wce1 ∧
        ∀ i, i < 40 → (withSpan 0 (runs [(40, false)])).sample i = false) := by decide
/-- The tie table of R127: V-S6, V-S7, V-S8, V-S9. -/
theorem witness_ClassifyIsLeastWithFixedTieBreak :
    ([[(14, false), (26, true)], [(26, false), (14, true)], [(8, false), (12, true), (12, false), (8, true)],
      [(8, false), (6, true), (6, false), (6, true), (6, false), (8, true)]].map fun l =>
        [Symbol.zero, .one, .marker].map (score Cfg.wce1 (withSpan 0 (runs l)).samples 0)) =
      [[6, 6, 18], [18, 6, 6], [12, 24, 12], [12, 12, 12]] := by decide
/-- V-S10 reaches the bound of R128(a); the complement of ONE, a template, all 0 and all 1. -/
theorem witness_ClassifyLawsOfR128 :
    State.reset.cfg.valid = true ∧
      (onesIn (withSpan 0 (runs [(14, true), (6, false), (6, true), (14, false)])) 0 8 = 8 ∧
        onesIn (withSpan 0 (runs [(14, true), (6, false), (6, true), (14, false)])) 32 8 = 0 ∧
        onesIn (withSpan 0 (runs [(14, true), (6, false), (6, true), (14, false)])) 8 12 +
          onesIn (withSpan 0 (runs [(14, true), (6, false), (6, true), (14, false)])) 20 12 = 12 ∧
        onesIn (withSpan 0 (runs [(14, true), (6, false), (6, true), (14, false)])) 20 12 ≤
          onesIn (withSpan 0 (runs [(14, true), (6, false), (6, true), (14, false)])) 8 12) ∧
      (∀ i, i < 40 → (withSpan 0 (runs [(20, true), (20, false)])).sample (0 + i) = !tmpl Cfg.wce1 .one i) ∧
      (∀ i, i < 40 → (withSpan 0 (wave40 .marker)).sample (0 + i) = tmpl Cfg.wce1 .marker i) ∧
      (∀ i, i < 40 → (withSpan 0 (runs [(40, false)])).sample (0 + i) = false) ∧
      (∀ i, i < 40 → (withSpan 0 (runs [(40, true)])).sample (0 + i) = true) := by decide
theorem witness_ClassifyOperation :
    (State.reset.cfg.valid = true ∧ 4760 + State.reset.cfg.sps ≤ State.reset.cfg.n) ∧
      State.reset.cfg.n < 4761 + State.reset.cfg.sps ∧
      ((withSpan 0 (runs [(14, false), (26, true)])).cfg = Cfg.wce1 ∧
        ∀ i, i < 40 → (withSpan 0 (runs [(14, false), (26, true)])).sample i = decide (14 ≤ i)) := by decide
theorem witness_SyncTotalSumsEighteenScores :
    Cfg.wce1.valid = true ∧ 2400 ≤ Cfg.wce1.lastCand ∧ (⟨59, .marker⟩ : FixedPos) ∈ Cfg.wce1.fixmap := by decide
theorem witness_FindFrameIsLeastTotalAtLowestOffset :
    2400 ≤ Cfg.wce1.lastCand ∧ (findFrame cfg10 planted.samples).1 = 7 := by decide +kernel
theorem witness_PruningDoesNotChangeTheResult :
    Prune.never.allowed ∧ Cfg.wce1.valid = true ∧ 18 * Cfg.wce1.sps < 721 :=
  ⟨fun _ _ _ _ h => absurd h Bool.false_ne_true, by decide, by decide⟩
theorem witness_SearchWorkIsBounded : Cfg.wce1.valid = true := by decide
theorem witness_MapAndSampleOrderAreInvisible :
    Cfg.wce1.fixmap.Perm wce1Fixmap.reverse ∧ (List.range Cfg.wce1.sps).Perm (List.range 40).reverse :=
  ⟨(List.reverse_perm _).symm, (List.reverse_perm _).symm⟩
theorem witness_CandidateOrderIsInvisible :
    (List.range (Cfg.wce1.lastCand + 1)).Perm (List.range (Cfg.wce1.lastCand + 1)).reverse := (List.reverse_perm _).symm
theorem witness_FindframeOperation : planted.cfg.valid = true ∧ 600 ≤ planted.cfg.lastCand := by decide
/-- The planted frame's 18 fixed spans are the templates; and a sample of second 1 lies in none of the 18 spans. -/
theorem witness_PerfectCandidateIsFound :
    (planted.cfg.valid = true ∧ 7 ≤ planted.cfg.lastCand ∧
      ∀ e ∈ planted.cfg.fixmap, ∀ i, i < 10 → planted.sample (7 + e.pos * 10 + i) = tmpl cfg10 e.sym i) ∧
      (∀ e ∈ cfg10.fixmap, ¬(7 + e.pos * 10 ≤ 17 ∧ 17 < 7 + e.pos * 10 + 10)) := by decide +kernel
/-- A field that fails at its last position only, and one that does not fail. -/
theorem witness_FieldResultByPositions :
    (decodeField cfg10 (state10 (frame10 7 (minutes34.dropLast ++ [(8, .marker)]))).samples 7 FieldIx.minutes).fail = true ∧
      (decodeField cfg10 (state10 (frame10 7 minutes34)).samples 7 FieldIx.minutes).fail = false := by decide +kernel
theorem witness_CodeOrderIsInvisible :
    let d : Cfg := { Cfg.wce1 with field := wce1Field.set 6 [⟨58, 1⟩, ⟨57, 2⟩] }
    d.sps = Cfg.wce1.sps ∧ d.failureScore = Cfg.wce1.failureScore ∧
      Cfg.wce1.field[FieldIx.dst].Perm d.field[FieldIx.dst] := by decide
theorem witness_FieldLawsOfR168 :
    (state10 (frame10 7 minutes34)).cfg.valid = true ∧
      (∀ e ∈ cfg10.field[FieldIx.minutes],
        (if e.pos = 2 ∨ e.pos = 3 ∨ e.pos = 6 then Symbol.one else .zero) ≠ .marker ∧
        ∀ i, i < 10 → (state10 (frame10 7 minutes34)).sample (7 + e.pos * 10 + i) =
          tmpl cfg10 (if e.pos = 2 ∨ e.pos = 3 ∨ e.pos = 6 then .one else .zero) i) ∧
      (decodeField cfg10 (state10 (frame10 7 ((1, .marker) :: minutes34.tail))).samples 7 FieldIx.minutes).fail = true := by
  decide +kernel
/-- The last legal frame start, the first illegal one, and the example's seven spans. -/
theorem witness_DecfieldOperation :
    (State.reset.cfg.valid = true ∧ 2400 + State.reset.cfg.frameLen ≤ State.reset.cfg.n) ∧
      State.reset.cfg.n < 2401 + State.reset.cfg.frameLen ∧
      (minutesAt137.cfg = Cfg.wce1 ∧
        ∀ e ∈ [(1, Symbol.zero), (2, .one), (3, .one), (5, .zero), (6, .one), (7, .zero), (8, .zero)],
          ∀ i, i < 40 → minutesAt137.sample (137 + e.1 * 40 + i) = tmpl Cfg.wce1 e.2 i) := by decide +kernel
theorem witness_DecframeOperation :
    (State.reset.cfg.valid = true ∧ 2400 + State.reset.cfg.frameLen ≤ State.reset.cfg.n) ∧
      State.reset.cfg.n < 2401 + State.reset.cfg.frameLen := by decide
theorem witness_FailedFieldsInTheAggregates :
    cfg10.valid = true ∧
      (decodeField cfg10 (state10 (cellsFrom 0 (List.replicate 600 false))).samples 0 FieldIx.lyi).fail = true := by
  decide +kernel
theorem witness_FieldsAreIsolated : 2400 + State.reset.cfg.frameLen ≤ State.reset.cfg.n := by decide
theorem witness_DecodeIsFindframeThenDecframe : State.reset.cfg.valid = true := by decide
/-- Each operation answers a next state: without an error where it fits, and with one where it does not. -/
theorem witness_operationsAnswerNext :
    [Instr.score 2 4760, .score 3 0, .score 1 4761, .classify 4760, .classify 4761, .findframe, .decfield 6 2400,
      .decfield 7 0, .decfield 0 2401, .decframe 2400, .decframe 2401, .decode].all
      (fun i => isNext (exec i State.reset)) = true := by decide
theorem witness_MatcherOperationsKeepTheRest : ∃ t, exec (.score 2 4760) State.reset = .next t := exists_next (by decide)
theorem witness_FindframeKeepsTheRest : ∃ t, exec .findframe State.reset = .next t := exists_next (by decide)
theorem witness_FieldOperationsKeepTheRest : ∃ t, exec (.decfield 6 2400) State.reset = .next t := exists_next (by decide)
/-- Two states with the same samples and configuration and different registers. -/
theorem witness_ResultsComeFromSamplesAlone :
    let u : State := { withSpan 0 (wave40 .one) with rSym := 2, ovr := true }
    u.cfg = (withSpan 0 (wave40 .one)).cfg ∧ u.smp = (withSpan 0 (wave40 .one)).smp ∧
      isNext (exec (.classify 0) (withSpan 0 (wave40 .one))) = true ∧ isNext (exec (.classify 0) u) = true ∧
      writesResult (.classify 0) .rScore = true := by decide
/-- A memory that differs from another only outside the span of `SCORE 0`. -/
theorem witness_ResultsDependOnListedCells :
    (∀ k, k < 40 → State.sample { withSpan 0 (wave40 .one) with smp := cellsFrom 0 (wave40 .one ++ [true]) } k =
      (withSpan 0 (wave40 .one)).sample k) ∧ isNext (exec (.score 1 0) (withSpan 0 (wave40 .one))) = true := by decide
/-- The largest SPS, and a DOY field that does not fail: every sample 1, every second a ZERO. -/
theorem witness_NoValueOverflowsItsRegister :
    Cfg.valid { Cfg.wce1 with sps := 3640 } = true ∧
      (decodeField Cfg.wce1 ⟨2 ^ 4800 - 1, 2 ^ 4800 - 1⟩ 0 FieldIx.doy).fail = false := by decide +kernel
theorem witness_ErrorChangesStatusAlone :
    (match exec (.decframe 2401) State.reset with | .next t => decide (t.err ≠ .noError) | _ => false) = true ∧
      (match engineTurn (busyWith 0x30000001#32 []) with | .next t => decide (t.err = .illegal) | _ => false) = true ∧
      (busyWith 0x30000001#32 []).busy = true := by decide
theorem witness_EachErrorHasItsCause : 3 < 4 ∧ 7 < 8 ∧ isNext (exec (.score 3 0xFFFFFF) State.reset) = true := by decide
theorem witness_CommandWriteIsAccepted :
    (idleWith [issue 0#32]).cfg.valid = true ∧ (idleWith [issue 0#32]).busy = false ∧
      (idleWith [issue 0#32]).schedule = issue 0#32 :: [] := by decide
/-- The last cell of the space, idle and busy. -/
theorem witness_HostWritesOneSample :
    4799 < State.reset.cfg.n ∧ (idleWith [writeCell 4799 true]).busy = false ∧
      (busyWith 0#32 [writeCell 4799 true]).busy = true ∧
      writeCell 4799 true = .write (BitVec.ofNat 27 (0x4000000 + 4 * 4799)) 4 1#32 := by decide
theorem witness_HostReadsOneSample :
    4799 < State.reset.cfg.n ∧ (idleWith [.read (BitVec.ofNat 27 (0x4000000 + 4 * 4799)) 4]).schedule =
      .read (BitVec.ofNat 27 (0x4000000 + 4 * 4799)) 4 :: [] := by decide
theorem witness_RegisterMapReads :
    (Inv (idleWith [readRegister 63]) ∧ 63 < 64 ∧ (idleWith [readRegister 63]).busy = false ∧
      (idleWith [readRegister 63]).schedule = readRegister 63 :: []) ∧
      ((9 ≤ 15 ∧ 15 ≤ 15) ∧ (43 ≤ 63 ∧ 63 ≤ 63)) ∧ (idleWith [readRegister 63]).cfg.valid = true :=
  ⟨⟨idleWith_inv _, by decide, by decide, rfl⟩, by decide, by decide⟩
/-- The first register above `CMD`, the last unmapped address below the samples, the first one above them, and the last. -/
theorem witness_OtherBusAccessesHaveNoEffect :
    [4, 0x3FFFFFC, 0x4000000 + 4 * 4800, 0x7FFFFFC].all (fun x => (BitVec.ofNat 27 x).toNat == x && x % 4 == 0 &&
      decide (4 ≤ x) && (decide (x < 0x4000000) || decide (0x4000000 + 4 * Cfg.wce1.n ≤ x))) = true ∧
      0x100 ≤ (0x100#27).toNat := by decide
theorem witness_WritesWhileBusyAreDropped :
    (busyWith 0#32 [issue 0#32]).busy = true ∧ (0#27).toNat % 4 = 0 ∧
      (0x4000000 ≤ (0x4004AFC#27).toNat ∧ (0x4004AFC#27).toNat < 0x4000000 + 4 * Cfg.wce1.n) ∧
      isNext (exec (.classify 0) State.reset) = true ∧
      (let s : State := { idleWith [issue 0#32] with ovr := true, anyErr := true }
       s.ovr = true ∧ s.anyErr = true ∧ s.schedule.head? ≠ some .rst ∧ isNext (step s) = true) := by decide
/-- A result register and one that is not. -/
theorem witness_ReadsWhileBusy :
    (busyWith 0#32 [readRegister 2]).busy = true ∧ (regOf 2).isResult = true ∧ (regOf 38).isResult = true ∧
      (regOf 1).isResult = false ∧ (regOf 63).isResult = false := by decide
theorem witness_LoadedCaptureIsInTheCells :
    (idleWith (loadFrom 0 [true, false] ++ [.rst])).cfg.valid = true ∧
      (idleWith (loadFrom 0 [true, false] ++ [.rst])).busy = false ∧
      [true, false].length ≤ (idleWith (loadFrom 0 [true, false] ++ [.rst])).cfg.n := by decide
theorem witness_CalendarConversion : (0 < 1 ∧ 365 < 366) ∧ (1 ≤ 1 ∧ 1 ≤ 365) ∧ (1 ≤ 366 ∧ 366 ≤ 366) := by decide
theorem witness_ReliabilityTiers : Cfg.wce1.valid = true ∧ 6 < Cfg.wce1.tierOkLt ∧ 9 < Cfg.wce1.tierNrLt := by decide

end Sys2Proof.Tests
end

section
/-! Scope (00_scope.md): which steps have a meaning (R6, R62), and that no step changes the configuration (R11). -/

namespace Sys2Proof.Machine

/-! ### Frames: the configuration -/

theorem exec_keeps_cfg {i : Instr} {s t : State} (h : exec i s = .next t) : t.cfg = s.cfg := by
  rcases exec_cases i s with ⟨e, -, hx⟩ | ⟨u, hx, -, -, -, -, -, hcfg, -⟩
  · cases hx.symm.trans h
    exact State.raise_cfg s e
  · cases hx.symm.trans h
    exact hcfg

theorem engineTurn_keeps_cfg {s t : State} (h : engineTurn s = .next t) : t.cfg = s.cfg := by
  rcases engineTurn_cases s with ⟨-, hidle⟩ | ⟨w, i, -, -, hrun⟩ | ⟨w, r, -, -, hillegal⟩
  · cases hidle.symm.trans h
    rfl
  · exact exec_keeps_cfg (hrun.symm.trans h)
  · cases hillegal.symm.trans h
    exact State.raise_cfg s .illegal

@[simp] theorem State.busWrite_cfg (s : State) (a : BusAddr) (d : Word) : (s.busWrite a d).cfg = s.cfg := by
  rcases busWrite_cases s a d with ⟨h, -⟩ | ⟨h, -⟩ | ⟨i, -, h, -⟩ | h <;> simp [h]

@[simp] theorem State.busRead_cfg (s : State) (a : BusAddr) : (s.busRead a).cfg = s.cfg := by
  rcases busRead_cases s a with ⟨d, h⟩ | ⟨k, h⟩ <;> simp [h]

/-! ### Which turns have a meaning -/

/-- Every operation completes (R42) and a command error is a next state (R206). -/
theorem exec_answers_next (i : Instr) (s : State) : ∃ t, exec i s = .next t := by
  rcases exec_cases i s with ⟨e, -, hx⟩ | ⟨t, hx, -⟩
  · exact ⟨s.raise e, hx⟩
  · exact ⟨t, hx⟩

theorem engineTurn_answers_next (s : State) : ∃ t, engineTurn s = .next t := by
  rcases engineTurn_cases s with ⟨-, hidle⟩ | ⟨w, i, -, -, hrun⟩ | ⟨w, r, -, -, hillegal⟩
  · exact ⟨s, hidle⟩
  · exact hrun ▸ exec_answers_next i s
  · exact ⟨s.raise .illegal, hillegal⟩

theorem ifAligned_of_aligned {a : BusAddr} {size : Nat} (h : alignedWord a size = true) (t : State) :
    ifAligned a size t = .next t := by simp [ifAligned, h]

theorem ifAligned_of_not_aligned {a : BusAddr} {size : Nat} (h : alignedWord a size = false) (t : State) :
    ifAligned a size t = .refused .notAlignedWord := by simp [ifAligned, h]

theorem takeTurn_answers_next {t : Turn} (h : t.meaningful = true) (s : State) : ∃ u, takeTurn t s = .next u := by
  cases t with
  | write a size d => exact ⟨s.busWrite a d, ifAligned_of_aligned h _⟩
  | read a size => exact ⟨s.busRead a, ifAligned_of_aligned h _⟩
  | rst => exact ⟨s.rstEdge, rfl⟩
  | engine => exact engineTurn_answers_next s

theorem takeTurn_refused {t : Turn} (h : t.meaningful = false) (s : State) :
    takeTurn t s = .refused .notAlignedWord := by
  cases t with
  | write a size d => exact ifAligned_of_not_aligned h _
  | read a size => exact ifAligned_of_not_aligned h _
  | rst => cases h
  | engine => cases h

/-! ### The step, by the configuration and the schedule -/

theorem step_of_invalid_cfg {s : State} (h : s.cfg.valid = false) : step s = .refused .invalidCfg := by
  simp [step, h]

theorem step_of_no_turn {s : State} (hc : s.cfg.valid = true) (hs : s.schedule = []) : step s = engineTurn s := by
  simp [step, nextTurn, hc, hs]

theorem step_of_turn {s : State} {t : Turn} {ts : List Turn} (hc : s.cfg.valid = true) (hs : s.schedule = t :: ts) :
    step s = takeTurn t { s with schedule := ts } := by
  simp [step, nextTurn, hc, hs]

/-! ### The obligations -/

/-- Settles O9: the first two clauses are the step's two refusals; for the third, the turn is the engine's when nothing
is scheduled and otherwise a meaningful one, and both answer a next state. -/
theorem stepIsRefusedExactlyWhen : Obligations.StepIsRefusedExactlyWhen := by
  intro s
  refine ⟨step_of_invalid_cfg, fun t ts hc hs hm => ?_, fun hc hm => ?_⟩
  · rw [step_of_turn hc hs]
    exact takeTurn_refused hm _
  · cases hs : s.schedule with
    | nil =>
      rw [step_of_no_turn hc hs]
      exact engineTurn_answers_next s
    | cons t ts =>
      rw [step_of_turn hc hs]
      exact takeTurn_answers_next (hm t ts hs) _

/-- Settles O14, by the five kinds of turn that `step_cases` names: each keeps the configuration. -/
theorem configurationNeverChanges : Obligations.ConfigurationNeverChanges := by
  intro s t h
  obtain ⟨-, ⟨-, he⟩ | ⟨ts, ⟨-, he⟩ | ⟨-, rfl⟩ | ⟨a, size, d, -, -, rfl⟩ | ⟨a, size, -, -, rfl⟩⟩⟩ := step_cases h
  · exact engineTurn_keeps_cfg he
  · simpa only using engineTurn_keeps_cfg he
  · exact State.rstEdge_cfg _
  · exact State.busWrite_cfg _ a d
  · exact State.busRead_cfg _ a

end Sys2Proof.Machine
end

section
/-! The ranges of the computed values (10_state.md R26 – R34, R45; 42_field_decoder.md R168): each function of the
matcher, the synchronizer and the field decoder with the range of what it returns. -/

namespace Sys2Proof.Machine

/-! ### The Symbol Matcher -/

theorem better_snd (best : Symbol × Nat) (y : Symbol) (t : Nat) : (better best y t).2 = min best.2 t := by
  unfold better
  split
  · next h => exact (Nat.min_eq_right h.le).symm
  · next h => exact (Nat.min_eq_left (Nat.le_of_not_lt h)).symm

theorem classify_snd (c : Cfg) (S : Samples) (st : Nat) :
    (classify c S st).2 = min (min (score c S st .one) (score c S st .zero)) (score c S st .marker) := by
  simp only [classify, better_snd]

theorem classify_le_score (c : Cfg) (S : Samples) (st : Nat) (y : Symbol) :
    (classify c S st).2 ≤ score c S st y := by
  rw [classify_snd]
  cases y <;> simp

/-- Between the two low phases the templates of ZERO and MARKER differ, so a sample disagrees with only one of them. -/
theorem zero_marker_disagreements_le (c : Cfg) (b : Sample) (i : Nat) :
    (b ^^ tmpl c .zero i).toNat + (b ^^ tmpl c .marker i).toNat +
      (if i ∈ Finset.Ico (c.lowLen .zero) (c.lowLen .marker) then 1 else 0) ≤ 2 := by
  by_cases h : i ∈ Finset.Ico (c.lowLen .zero) (c.lowLen .marker)
  · obtain ⟨hz, hm⟩ := Finset.mem_Ico.1 h
    have hz : tmpl c .zero i = true := decide_eq_true hz
    have hm : tmpl c .marker i = false := decide_eq_false (Nat.not_le.2 hm)
    cases b <;> simp [hz, hm, h]
  · have hz := Bool.toNat_le (b ^^ tmpl c .zero i)
    have hm := Bool.toNat_le (b ^^ tmpl c .marker i)
    simp only [if_neg h]
    omega

theorem sum_indicator_Ico {a b n : Nat} (h : b ≤ n) :
    ∑ i ∈ Finset.range n, (if i ∈ Finset.Ico a b then 1 else 0) = b - a := by
  have hf : (Finset.range n).filter (· ∈ Finset.Ico a b) = Finset.Ico a b := by
    ext i
    simp only [Finset.mem_filter, Finset.mem_range, Finset.mem_Ico]
    omega
  rw [← Finset.card_filter, hf, Nat.card_Ico]

theorem score_zero_add_score_marker_le {c : Cfg} (hc : c.valid = true) (S : Samples) (st : Nat) :
    score c S st .zero + score c S st .marker ≤ 14 * (c.sps / 10) := by
  obtain ⟨q, hsps, hz, -, hm⟩ := Cfg.valid_lowLen hc
  have hsum := Finset.sum_le_sum fun i (_ : i ∈ Finset.range c.sps) =>
    zero_marker_disagreements_le c (S.at (st + i)) i
  rw [Finset.sum_add_distrib, Finset.sum_add_distrib, sum_indicator_Ico (by omega), Finset.sum_const,
    Finset.card_range, smul_eq_mul, ← sumTo_eq_sum, ← sumTo_eq_sum] at hsum
  change score c S st .zero + score c S st .marker + _ ≤ _ at hsum
  omega

/-- R128(a): the smaller of the scores of ZERO and MARKER is at most half their sum. -/
theorem classify_le {c : Cfg} (hc : c.valid = true) (S : Samples) (st : Nat) :
    (classify c S st).2 ≤ 7 * c.sps / 10 := by
  have hsps := (Cfg.valid_sps hc).1
  have hz := classify_le_score c S st .zero
  have hm := classify_le_score c S st .marker
  have hsum := score_zero_add_score_marker_le hc S st
  omega

/-! ### The Frame Synchronizer -/

theorem syncTotal_le {c : Cfg} (hc : c.valid = true) (S : Samples) (c0 : Nat) : syncTotal c S c0 ≤ 18 * c.sps := by
  have h := List.sum_le_card_nsmul (c.fixmap.map (entryScore c S c0)) c.sps fun x hx => by
    obtain ⟨e, -, rfl⟩ := List.mem_map.1 hx
    exact score_le c S _ _
  simpa [syncTotal, Cfg.valid_fixmap_length hc] using h

/-- The search never gives up a running best for a greater total. -/
theorem searchFrom_snd_le (c : Cfg) (S : Samples) (k c0 : Nat) (best : Nat × Nat) :
    (searchFrom c S k c0 best).2 ≤ best.2 := by
  induction k generalizing c0 best with
  | zero => exact le_rfl
  | succ k ih =>
    unfold searchFrom
    split
    · exact ih _ _
    · next t _ =>
      refine (ih _ _).trans ?_
      cases h : Nat.blt t best.2
      · exact le_rfl
      · exact (show t < best.2 by simpa using h).le

theorem searchFrom_fst_le (c : Cfg) (S : Samples) (k c0 last : Nat) (best : Nat × Nat) (hb : best.1 ≤ last)
    (hk : c0 + k ≤ last + 1) : (searchFrom c S k c0 best).1 ≤ last := by
  induction k generalizing c0 best with
  | zero => exact hb
  | succ k ih =>
    unfold searchFrom
    split
    · exact ih _ _ hb (by omega)
    · next t _ =>
      refine ih _ _ ?_ (by omega)
      cases Nat.blt t best.2
      · exact hb
      · show c0 ≤ last
        omega

theorem findFrame_fst_le (c : Cfg) (S : Samples) : (findFrame c S).1 ≤ c.lastCand :=
  searchFrom_fst_le c S _ _ _ _ (Nat.zero_le _) (by omega)

theorem findFrame_snd_le {c : Cfg} (hc : c.valid = true) (S : Samples) : (findFrame c S).2 ≤ 18 * c.sps :=
  (searchFrom_snd_le c S _ _ _).trans (syncTotal_le hc S 0)

/-! ### The Field Decoder -/

/-- The range of the three accumulators of R161 after `n` positions whose weights add up to `w`, and so of a field that
does not fail (R168(b)). -/
structure FieldResult.InRange (c : Cfg) (n w : Nat) (r : FieldResult) : Prop where
  value_le : r.value ≤ w
  score_le : r.score ≤ n * r.worst
  worst_le_score : r.worst ≤ r.score
  worst_le : r.worst ≤ 7 * c.sps / 10

/-- One more position, of weight `k` and score `t`, with bit value `b`. -/
theorem FieldResult.InRange.next {c : Cfg} {n w value sc worst k t b : Nat}
    (h : FieldResult.InRange c n w ⟨value, sc, worst, false⟩) (hb : b ≤ 1) (ht : t ≤ 7 * c.sps / 10) :
    FieldResult.InRange c (n + 1) (w + k) ⟨value + k * b, sc + t, max worst t, false⟩ where
  value_le := Nat.add_le_add h.value_le (mul_le_of_le_one_right (Nat.zero_le _) hb)
  score_le := by
    have hn : n * worst ≤ n * max worst t := Nat.mul_le_mul_left n (le_max_left _ _)
    calc sc + t ≤ n * worst + t := Nat.add_le_add_right h.score_le t
      _ ≤ n * max worst t + max worst t := Nat.add_le_add hn (le_max_right _ _)
      _ = (n + 1) * max worst t := (Nat.succ_mul _ _).symm
  worst_le_score := by
    have := h.worst_le_score
    simp only at this ⊢
    omega
  worst_le := max_le h.worst_le ht

theorem bitValue_le_one (y : Symbol) : bitValue y ≤ 1 := by cases y <;> decide

/-- The loop of R161 fails as a whole, or ends with its accumulators in range. -/
theorem decodePairs_failed_or_inRange {c : Cfg} (hc : c.valid = true) (S : Samples) (fs : Nat) (es : List CodePair)
    {n w value sc worst : Nat} (h : FieldResult.InRange c n w ⟨value, sc, worst, false⟩) :
    decodePairs c S fs es value sc worst = failedField c ∨
      ((decodePairs c S fs es value sc worst).fail = false ∧
        FieldResult.InRange c (n + es.length) (w + weightSum es) (decodePairs c S fs es value sc worst)) := by
  induction es generalizing n w value sc worst with
  | nil => exact .inr ⟨rfl, h⟩
  | cons e es ih =>
    have hcl := classify_le hc S (spanStart c fs e.pos)
    have hlen : n + (e :: es).length = n + 1 + es.length := by simp only [List.length_cons]; omega
    have hsum : w + weightSum (e :: es) = w + e.weight + weightSum es := by
      simp only [weightSum, List.map_cons, List.sum_cons]; omega
    rw [hlen, hsum]
    unfold decodePairs
    dsimp only
    split
    · exact .inl rfl
    · exact ih (h.next (bitValue_le_one _) hcl)

/-- R168(b)(c): a field fails with the four fixed outputs, or stays in range. -/
theorem decodeField_failed_or_inRange {c : Cfg} (hc : c.valid = true) (S : Samples) (fs : Nat) (f : FieldIx) :
    decodeField c S fs f = failedField c ∨
      ((decodeField c S fs f).fail = false ∧
        FieldResult.InRange c c.field[f].length (weightSum c.field[f]) (decodeField c S fs f)) := by
  have h0 : FieldResult.InRange c 0 0 ⟨0, 0, 0, false⟩ := ⟨le_rfl, le_rfl, le_rfl, Nat.zero_le _⟩
  simpa only [Nat.zero_add, decodeField] using decodePairs_failed_or_inRange hc S fs c.field[f] h0

theorem decodeField_inRange {c : Cfg} (hc : c.valid = true) {S : Samples} {fs : Nat} {f : FieldIx}
    (hf : (decodeField c S fs f).fail = false) :
    FieldResult.InRange c c.field[f].length (weightSum c.field[f]) (decodeField c S fs f) := by
  rcases decodeField_failed_or_inRange hc S fs f with h | ⟨-, h⟩
  · rw [h] at hf; cases hf
  · exact h

theorem decodeField_failed {c : Cfg} (hc : c.valid = true) {S : Samples} {fs : Nat} {f : FieldIx}
    (hf : (decodeField c S fs f).fail = true) : decodeField c S fs f = failedField c := by
  rcases decodeField_failed_or_inRange hc S fs f with h | ⟨h, -⟩
  · exact h
  · rw [h] at hf; cases hf

section
variable {c : Cfg} (hc : c.valid = true) (S : Samples) (fs : Nat) (f : FieldIx)
include hc

theorem decodeField_value_le : (decodeField c S fs f).value ≤ weightSum c.field[f] := by
  rcases decodeField_failed_or_inRange hc S fs f with h | ⟨-, h⟩
  · rw [h]; exact Nat.zero_le _
  · exact h.value_le

theorem decodeField_worst_le : (decodeField c S fs f).worst ≤ c.sps := by
  rcases decodeField_failed_or_inRange hc S fs f with h | ⟨-, h⟩
  · rw [h]; exact le_rfl
  · have := h.worst_le
    omega

theorem decodeField_score_le_of_not_fail (hf : (decodeField c S fs f).fail = false) :
    (decodeField c S fs f).score ≤ c.field[f].length * c.sps :=
  (decodeField_inRange hc hf).score_le.trans (Nat.mul_le_mul_left _ (decodeField_worst_le hc S fs f))

theorem decodeField_score_le : (decodeField c S fs f).score ≤ c.failureScore := by
  cases hf : (decodeField c S fs f).fail with
  | true => rw [decodeField_failed hc hf]; exact le_rfl
  | false => exact ((decodeField_score_le_of_not_fail hc S fs f hf).trans_lt ((Cfg.valid_failureScore hc).1 f)).le

theorem frameTotal_le : frameTotal c S fs ≤ 7 * 65535 := by
  refine List.sum_le_card_nsmul ((frameResults c S fs).map FieldResult.score) 65535 fun x hx => ?_
  simp only [frameResults, List.map_map, List.mem_map, Function.comp_apply] at hx
  obtain ⟨g, -, rfl⟩ := hx
  exact (decodeField_score_le hc S fs g).trans (Cfg.valid_failureScore hc).2

theorem frameWorst_le : frameWorst c S fs ≤ c.sps := by
  have h := decodeField_worst_le hc S fs
  simp only [frameWorst, frameResults, FieldIx.all, List.map_cons, List.map_nil, List.foldr_cons, List.foldr_nil,
    max_le_iff, h, Nat.zero_le, and_self]

end

/-! ### The obligation -/

/-- R10: the code of DOY has ten positions, and R7 makes a position's worst score 28 in WCE-1. -/
theorem wce1_doy_score_le {S : Samples} {fs : Nat} (hf : (decodeField Cfg.wce1 S fs FieldIx.doy).fail = false) :
    (decodeField Cfg.wce1 S fs FieldIx.doy).score ≤ 280 := by
  obtain ⟨-, hscore, -, hworst⟩ := decodeField_inRange (c := Cfg.wce1) (by decide) hf
  have hlen : Cfg.wce1.field[FieldIx.doy].length = 10 := rfl
  have hbound : 7 * Cfg.wce1.sps / 10 = 28 := rfl
  rw [hlen] at hscore
  omega

/-- Settles O45, range by range. -/
theorem noValueOverflowsItsRegister : Obligations.NoValueOverflowsItsRegister := by
  refine ⟨fun c S hc => ?_, fun S fs => wce1_doy_score_le⟩
  obtain ⟨-, hsps_pos, hsps⟩ := Cfg.valid_sps hc
  have hlast := Cfg.valid_lastCand hc
  have hframe : c.frameLen = 60 * c.sps := rfl
  refine ⟨score_le c S, hsps, syncTotal_le hc S, by omega, fun fs f hf => ?_,
    fun fs f => ⟨?_, decodeField_worst_le hc S fs f⟩, classify_le hc S, fun fs f => ⟨decodeField_value_le hc S fs f, Cfg.valid_weightSum hc f⟩,
    fun fs => ⟨frameTotal_le hc S fs, frameWorst_le hc S fs⟩, findFrame_fst_le c S, by omega, (Cfg.valid_bufsec hc).2⟩
  · have hscore := decodeField_score_le_of_not_fail hc S fs f hf
    have hmax : c.field[f].length * c.sps ≤ 16 * 3640 := Nat.mul_le_mul (Cfg.valid_code_length hc f).2 hsps
    exact ⟨hscore, hscore.trans hmax, hscore.trans_lt ((Cfg.valid_failureScore hc).1 f)⟩
  · exact (decodeField_score_le hc S fs f).trans (Cfg.valid_failureScore hc).2

end Sys2Proof.Machine
end

section
/-! What a command does (10_state.md R38, R42; 60_exceptions.md R203 – R206): its error and what it commits, each as a
function of its own, and what the commit leaves as it was. -/

namespace Sys2Proof.Machine

/-! ### The error and the commit of an operation -/

/-- The error an operation ends with (R203, R204, OPERAND first: R205). -/
def errorOf (c : Cfg) : Instr → CmdError
  | .score sym start =>
    match symbolOf? sym with
    | none => .operand
    | some _ => if start + c.sps ≤ c.n then .noError else .bounds
  | .classify start => if start + c.sps ≤ c.n then .noError else .bounds
  | .findframe => .noError
  | .decfield f start =>
    match fieldOf? f with
    | none => .operand
    | some _ => if start + c.frameLen ≤ c.n then .noError else .bounds
  | .decframe start => if start + c.frameLen ≤ c.n then .noError else .bounds
  | .decode => .noError

/-- The result registers an operation without an error writes (R38), STATUS aside. -/
def commit (s : State) : Instr → State
  | .score sym start =>
    match symbolOf? sym with
    | none => s
    | some y => s.setSymScore (symCode y) (score s.cfg s.samples start y)
  | .classify start =>
    s.setSymScore (symCode (classify s.cfg s.samples start).1) (classify s.cfg s.samples start).2
  | .findframe => s.setSync (findFrame s.cfg s.samples).1 (findFrame s.cfg s.samples).2
  | .decfield f start =>
    match fieldOf? f with
    | none => s
    | some g => s.putField g (decodeField s.cfg s.samples start g)
  | .decframe start => s.putFrame s.samples start
  | .decode =>
    (s.setSync (findFrame s.cfg s.samples).1 (findFrame s.cfg s.samples).2).putFrame s.samples
      (findFrame s.cfg s.samples).1

/-- The two ends of an operation: it completes with what it commits, or raises its error. -/
def conclude (s : State) (i : Instr) : State :=
  if errorOf s.cfg i = .noError then (commit s i).complete else s.raise (errorOf s.cfg i)

theorem exec_eq_conclude (i : Instr) (s : State) : exec i s = .next (conclude s i) := by
  unfold conclude
  cases i with
  | score sym start =>
    cases hy : symbolOf? sym with
    | none => simp [exec_score, errorOf, hy]
    | some y => by_cases h : start + s.cfg.sps ≤ s.cfg.n <;> simp [exec_score, errorOf, commit, hy, h]
  | classify start => by_cases h : start + s.cfg.sps ≤ s.cfg.n <;> simp [exec_classify, errorOf, commit, h]
  | findframe => exact exec_findframe s
  | decfield f start =>
    cases hg : fieldOf? f with
    | none => simp [exec_decfield, errorOf, hg]
    | some g => by_cases h : start + s.cfg.frameLen ≤ s.cfg.n <;> simp [exec_decfield, errorOf, commit, hg, h]
  | decframe start => by_cases h : start + s.cfg.frameLen ≤ s.cfg.n <;> simp [exec_decframe, errorOf, commit, h]
  | decode => exact exec_decode s

theorem exec_next_iff {i : Instr} {s t : State} : exec i s = .next t ↔ t = conclude s i := by
  rw [exec_eq_conclude, Host.Outcome.next.injEq, eq_comm]

@[simp] theorem conclude_err (s : State) (i : Instr) : (conclude s i).err = errorOf s.cfg i := by
  unfold conclude
  split
  · next h => exact h.symm
  · rfl

theorem conclude_of_noError {s : State} {i : Instr} (h : errorOf s.cfg i = .noError) :
    conclude s i = (commit s i).complete := if_pos h

theorem conclude_of_error {s : State} {i : Instr} (h : errorOf s.cfg i ≠ .noError) :
    conclude s i = s.raise (errorOf s.cfg i) := if_neg h

/-! ### Registers under the updates of the state -/

theorem regValue_complete (s : State) {k : RegName} (hk : k ≠ .status) : s.complete.regValue k = s.regValue k := by
  cases k with
  | status => exact absurd rfl hk
  | _ => rfl

theorem regValue_raise (s : State) (e : CmdError) {k : RegName} (hk : k ≠ .status) :
    (s.raise e).regValue k = s.regValue k := by
  cases k with
  | status => exact absurd rfl hk
  | _ => rfl

theorem regValue_setSymScore (s : State) (code sc : Nat) {k : RegName} (hsym : k ≠ .rSym) (hscore : k ≠ .rScore) :
    (s.setSymScore code sc).regValue k = s.regValue k := by
  cases k with
  | rSym => exact absurd rfl hsym
  | rScore => exact absurd rfl hscore
  | _ => rfl

theorem regValue_setField (s : State) (f : FieldIx) (value sc worst : Nat) (fail : Bool) {k : RegName}
    (hf : k ≠ .fFail) (hg : ∀ g, k = .fValue g ∨ k = .fScore g ∨ k = .fWorst g → g ≠ f) :
    (s.setField f value sc worst fail).regValue k = s.regValue k := by
  cases k with
  | fFail => exact absurd rfl hf
  | fValue g => simp only [State.regValue, State.setField_fValue, set_get, if_neg (hg g (.inl rfl))]
  | fScore g => simp only [State.regValue, State.setField_fScore, set_get, if_neg (hg g (.inr (.inl rfl)))]
  | fWorst g => simp only [State.regValue, State.setField_fWorst, set_get, if_neg (hg g (.inr (.inr rfl)))]
  | _ => rfl

/-! ### What a commit leaves as it was -/

theorem commit_score_cases (s : State) (sym start : Nat) :
    commit s (.score sym start) = s ∨
      ∃ y, commit s (.score sym start) = s.setSymScore (symCode y) (score s.cfg s.samples start y) := by
  simp only [commit]
  split
  · exact .inl rfl
  · next y _ => exact .inr ⟨y, rfl⟩

theorem fieldOf?_eq_some {f : Nat} {g : FieldIx} : fieldOf? f = some g ↔ g.val = f := by
  constructor
  · intro h
    unfold fieldOf? at h
    split at h <;> cases h
    rfl
  · rintro rfl
    exact fieldOf?_val g

theorem commit_decfield_cases (s : State) (f start : Nat) :
    commit s (.decfield f start) = s ∨
      ∃ g : FieldIx, g.val = f ∧
        commit s (.decfield f start) = s.putField g (decodeField s.cfg s.samples start g) := by
  simp only [commit]
  split
  · exact .inl rfl
  · next g hg => exact .inr ⟨g, fieldOf?_eq_some.1 hg, rfl⟩

@[simp] theorem State.putField_cfg (s : State) (f : FieldIx) (r : FieldResult) : (s.putField f r).cfg = s.cfg := rfl
@[simp] theorem State.putField_smp (s : State) (f : FieldIx) (r : FieldResult) : (s.putField f r).smp = s.smp := rfl

@[simp] theorem commit_cfg (s : State) (i : Instr) : (commit s i).cfg = s.cfg := by
  cases i with
  | score sym start => obtain h | ⟨y, h⟩ := commit_score_cases s sym start <;> simp [h]
  | decfield f start => obtain h | ⟨g, -, h⟩ := commit_decfield_cases s f start <;> simp [h]
  | _ => rfl

@[simp] theorem commit_smp (s : State) (i : Instr) : (commit s i).smp = s.smp := by
  cases i with
  | score sym start => obtain h | ⟨y, h⟩ := commit_score_cases s sym start <;> simp [h]
  | decfield f start => obtain h | ⟨g, -, h⟩ := commit_decfield_cases s f start <;> simp [h]
  | _ => rfl

/-- R38: a register outside the operation's row. -/
theorem commit_regValue_of_not_written {s : State} {i : Instr} {k : RegName} (hw : writesResult i k = false) :
    (commit s i).regValue k = s.regValue k := by
  cases i with
  | score sym start =>
    obtain h | ⟨y, h⟩ := commit_score_cases s sym start
    · rw [h]
    · rw [h]
      exact regValue_setSymScore _ _ _ (by rintro rfl; cases hw) (by rintro rfl; cases hw)
  | classify start => exact regValue_setSymScore _ _ _ (by rintro rfl; cases hw) (by rintro rfl; cases hw)
  | findframe =>
    cases k with
    | rOffset | rSyncerr => cases hw
    | _ => rfl
  | decfield f start =>
    obtain h | ⟨g, rfl, h⟩ := commit_decfield_cases s f start
    · rw [h]
    · rw [h]
      refine regValue_setField _ _ _ _ _ _ (by rintro rfl; cases hw) ?_
      rintro g' hk rfl
      rcases hk with rfl | rfl | rfl <;> simp [writesResult] at hw
  | decframe start =>
    cases k with
    | aScore | aWorst | fFail | fValue g | fScore g | fWorst g => cases hw
    | _ => rfl
  | decode =>
    cases k with
    | rOffset | rSyncerr | aScore | aWorst | fFail | fValue g | fScore g | fWorst g => cases hw
    | _ => rfl

/-- R32, R38: the bits of `F_FAIL` a DECFIELD does not own. -/
theorem commit_decfield_fFail {s : State} {f start : Nat} {g : FieldIx} (hg : g.val ≠ f) :
    (commit s (.decfield f start)).fFail.getLsbD g = s.fFail.getLsbD g := by
  obtain h | ⟨g', rfl, h⟩ := commit_decfield_cases s f start
  · rw [h]
  · rw [h, State.putField, State.setField_fFail, withFailBit_get, if_neg fun e => hg (congrArg _ e)]

/-- R38, R206: the frame of every operation. -/
theorem exec_keepsTheRest {i : Instr} {s t : State} (h : exec i s = .next t) : KeepsTheRest i s t := by
  rcases exec_cases i s with ⟨e, he, hx⟩ | ⟨u, hx, -, -, herr, hany, hovr, hcfg, hsmp, hsched, hrdata, hfree⟩
  · cases hx.symm.trans h
    exact {
      registers := fun k hk _ => regValue_raise s e hk
      failBits := fun _ _ _ _ _ => rfl
      samples := fun _ => rfl
      cfg := rfl
      ovr := rfl
      anyErr := by simp [he]
      schedule := rfl
      rdata := rfl
      freeReads := rfl }
  · cases hx.symm.trans h
    obtain rfl : t = (commit s i).complete := by
      have ht := exec_next_iff.1 h
      rw [ht, conclude_err] at herr
      rw [ht, conclude_of_noError herr]
    exact {
      registers := fun k hk hw => by
        have hw := hw.resolve_right (not_not_intro herr)
        rw [regValue_complete _ hk, commit_regValue_of_not_written hw]
      failBits := by
        rintro f start g rfl hg
        exact commit_decfield_fFail hg
      samples := fun a => by rw [State.sample, hsmp]; rfl
      cfg := hcfg
      ovr := hovr
      anyErr := hany.trans (by simp)
      schedule := hsched
      rdata := hrdata
      freeReads := hfree }

/-! ### What a commit computes from -/

theorem samples_of_smp_eq {s t : State} (h : t.smp = s.smp) : t.samples = s.samples := by
  simp only [State.samples, h]

/-- R39: the values an operation writes are functions of the samples and the configuration. -/
theorem commit_regValue_of_written {s u : State} {i : Instr} {k : RegName} (hcfg : u.cfg = s.cfg)
    (hsamples : u.samples = s.samples) (herr : errorOf s.cfg i = .noError) (hw : writesResult i k = true)
    (hk : k ≠ .fFail) : (commit s i).regValue k = (commit u i).regValue k := by
  cases i with
  | score sym start =>
    cases hy : symbolOf? sym with
    | none => simp [errorOf, hy] at herr
    | some y =>
      simp only [commit, hy, hcfg, hsamples]
      cases k with
      | rSym | rScore => rfl
      | _ => cases hw
  | classify start =>
    simp only [commit, hcfg, hsamples]
    cases k with
    | rSym | rScore => rfl
    | _ => cases hw
  | findframe =>
    simp only [commit, hcfg, hsamples]
    cases k with
    | rOffset | rSyncerr => rfl
    | _ => cases hw
  | decfield f start =>
    cases hg : fieldOf? f with
    | none => simp [errorOf, hg] at herr
    | some g =>
      obtain rfl := fieldOf?_eq_some.1 hg
      simp only [commit, hg, hcfg, hsamples]
      cases k with
      | fValue g' | fScore g' | fWorst g' =>
        obtain rfl : g = g' := Fin.ext (beq_iff_eq.1 hw)
        simp [State.regValue, State.putField]
      | fFail => exact absurd rfl hk
      | _ => cases hw
  | decframe start =>
    simp only [commit, State.putFrame, hcfg, hsamples]
    cases k with
    | aScore | aWorst | fValue g | fScore g | fWorst g => rfl
    | fFail => exact absurd rfl hk
    | _ => cases hw
  | decode =>
    simp only [commit, State.putFrame, State.setSync_cfg, hcfg, hsamples]
    cases k with
    | rOffset | rSyncerr | aScore | aWorst | fValue g | fScore g | fWorst g => rfl
    | fFail => exact absurd rfl hk
    | _ => cases hw

/-- R32, R39: the `F_FAIL` bit of a decoded field. -/
theorem commit_fFail_of_written {s u : State} {i : Instr} {start : Nat} {g : FieldIx} (hcfg : u.cfg = s.cfg)
    (hsamples : u.samples = s.samples) (hi : i = .decfield g.val start ∨ i = .decframe start ∨ i = .decode) :
    (commit s i).fFail.getLsbD g = (commit u i).fFail.getLsbD g := by
  rcases hi with rfl | rfl | rfl
  · simp only [commit, fieldOf?_val, hcfg, hsamples, State.putField, State.setField_fFail, withFailBit_get, if_pos]
  · simp only [commit, hcfg, hsamples, State.putFrame, State.setFrame_fFail]
  · simp only [commit, hcfg, hsamples, State.putFrame, State.setFrame_fFail, State.setSync_cfg]

theorem withFailBit_idem (v : BitVec 7) (f : FieldIx) (b : Bool) :
    withFailBit (withFailBit v f b) f b = withFailBit v f b := by
  refine BitVec.eq_of_getLsbD_eq fun j hj => ?_
  have h := withFailBit_get (withFailBit v f b) f ⟨j, hj⟩ b
  have h' := withFailBit_get v f ⟨j, hj⟩ b
  simp only at h h'
  rw [h, h']
  split <;> rfl

theorem State.putField_complete_idem (s : State) (f : FieldIx) (r : FieldResult) :
    (s.putField f r).complete.putField f r = (s.putField f r).complete := by
  simp [State.putField, State.setField, State.complete, withFailBit_idem]

/-- R39: what an operation committed it commits again, with nothing changed. -/
theorem commit_complete_idem (s : State) (i : Instr) :
    commit (commit s i).complete i = (commit s i).complete := by
  have hsamples : (commit s i).complete.samples = s.samples := samples_of_smp_eq (commit_smp s i)
  have hcfg : (commit s i).complete.cfg = s.cfg := commit_cfg s i
  generalize hu : (commit s i).complete = u at hsamples hcfg ⊢
  cases i with
  | score sym start =>
    simp only [commit, hcfg, hsamples] at hu ⊢
    split
    · rfl
    · next hy => rw [← hu, hy]; rfl
  | decfield f start =>
    simp only [commit, hcfg, hsamples] at hu ⊢
    split
    · rfl
    · next hg => rw [← hu, hg]; exact State.putField_complete_idem s _ _
  | _ =>
    simp only [commit, State.putFrame, State.setSync_cfg, hcfg, hsamples] at hu ⊢
    rw [← hu]
    rfl

theorem conclude_idem (s : State) (i : Instr) : conclude (conclude s i) i = conclude s i := by
  by_cases h : errorOf s.cfg i = .noError
  · rw [conclude_of_noError h, conclude_of_noError (by simpa using h), commit_complete_idem]
    rfl
  · rw [conclude_of_error h, conclude_of_error (by simpa using h)]
    rfl

/-! ### The obligations -/

/-- Settles O40: two rows of the frame that every operation keeps. -/
theorem matcherOperationsKeepTheRest : Obligations.MatcherOperationsKeepTheRest :=
  fun _ _ _ _ => ⟨exec_keepsTheRest, exec_keepsTheRest⟩

/-- Settles O41: the row FINDFRAME of the frame that every operation keeps. -/
theorem findframeKeepsTheRest : Obligations.FindframeKeepsTheRest := fun _ _ => exec_keepsTheRest

/-- Settles O42: three rows of the frame that every operation keeps. -/
theorem fieldOperationsKeepTheRest : Obligations.FieldOperationsKeepTheRest :=
  fun _ _ _ _ => ⟨exec_keepsTheRest, exec_keepsTheRest, exec_keepsTheRest⟩

/-- Settles O43: the error and the commit read the configuration and the samples alone, and a commit is idempotent. -/
theorem resultsComeFromSamplesAlone : Obligations.ResultsComeFromSamplesAlone := by
  refine ⟨fun i s u s' u' hcfg hsmp hs hu => ?_, fun i s t h => ?_⟩
  · have hsamples : u.samples = s.samples := samples_of_smp_eq hsmp
    obtain rfl := exec_next_iff.1 hs
    obtain rfl := exec_next_iff.1 hu
    have herr : errorOf u.cfg i = errorOf s.cfg i := by rw [hcfg]
    simp only [conclude_err]
    refine ⟨herr.symm, fun h k hw hk => ?_, fun h start g hi => ?_⟩ <;>
      rw [conclude_of_noError h, conclude_of_noError (herr.trans h)]
    · have hstatus : k ≠ .status := by rintro rfl; cases i <;> cases hw
      rw [regValue_complete _ hstatus, regValue_complete _ hstatus]
      exact commit_regValue_of_written hcfg hsamples h hw hk
    · exact commit_fFail_of_written hcfg hsamples hi
  · obtain rfl := exec_next_iff.1 h
    exact exec_next_iff.2 (conclude_idem s i).symm

/-- Settles O48: an operation concludes by completing or by raising its error. -/
theorem everyOperationCompletes : Obligations.EveryOperationCompletes := by
  intro i s
  refine ⟨conclude s i, exec_eq_conclude i s, ?_⟩
  unfold conclude
  split <;> exact ⟨rfl, rfl⟩

end Sys2Proof.Machine
end

section
/-! The run invariant (10_state.md R24 – R34, R46): it holds after reset, and each operation on the state keeps it, so
every step does. -/

namespace Sys2Proof.Machine

/-! ### The field registers -/

theorem toNat_ofNat_of_le {w n b : Nat} (hn : n ≤ b) (hb : b < 2 ^ w) : (BitVec.ofNat w n).toNat = n :=
  (BitVec.toNat_ofNat n w).trans (Nat.mod_eq_of_lt (hn.trans_lt hb))

theorem toNat_ofNat_le_self (w n : Nat) : (BitVec.ofNat w n).toNat ≤ n :=
  (BitVec.toNat_ofNat n w).trans_le (Nat.mod_le _ _)

/-- The registers of a field that hold what `decodeField` returns are in range, since every value fits its register. -/
theorem fieldRegsOk_of_decodeField {s : State} (hc : s.cfg.valid = true) {S : Samples} {fs : Nat} {f : FieldIx}
    (hvalue : s.fValue[f] = BitVec.ofNat 16 (decodeField s.cfg S fs f).value)
    (hscore : s.fScore[f] = BitVec.ofNat 16 (decodeField s.cfg S fs f).score)
    (hworst : s.fWorst[f] = BitVec.ofNat 16 (decodeField s.cfg S fs f).worst)
    (hfail : s.fFail.getLsbD f = (decodeField s.cfg S fs f).fail) : FieldRegsOk s f := by
  have hsps := (Cfg.valid_sps hc).2.2
  have hv := toNat_ofNat_of_le ((decodeField_value_le hc S fs f).trans (Cfg.valid_weightSum hc f))
    (by decide : 65535 < 2 ^ 16)
  have hsc := toNat_ofNat_of_le ((decodeField_score_le hc S fs f).trans (Cfg.valid_failureScore hc).2)
    (by decide : 65535 < 2 ^ 16)
  have hw := toNat_ofNat_of_le ((decodeField_worst_le hc S fs f).trans hsps) (by decide : 3640 < 2 ^ 16)
  rw [FieldRegsOk, hvalue, hscore, hworst, hfail, hv, hsc, hw]
  cases hf : (decodeField s.cfg S fs f).fail with
  | true =>
    rw [decodeField_failed hc hf]
    exact ⟨rfl, rfl, rfl⟩
  | false =>
    obtain ⟨h1, h2, h3, h4⟩ := decodeField_inRange hc hf
    exact ⟨h1, h2, h3, h4⟩

/-! ### Reset -/

theorem fieldRegsOk_resetOf (c : Cfg) (f : FieldIx) : FieldRegsOk (State.resetOf c) f := by
  have hzero : (#v[0, 0, 0, 0, 0, 0, 0] : Vector (BitVec 16) 7)[f] = 0 := by fin_cases f <;> rfl
  simp only [FieldRegsOk, State.resetOf, hzero]
  simp

theorem inv_resetOf {c : Cfg} (hc : c.valid = true) : Inv (State.resetOf c) where
  cfgValid := hc
  memWf := rfl
  memInBounds := rfl
  notBusyAndDone := fun hb => Bool.noConfusion hb.1
  errOnlyWhenDone := fun h => absurd rfl h
  errIsRecorded := fun h => absurd rfl h
  symLegal := Nat.zero_ne_add_one 2
  scoreInRange := Nat.zero_le _
  offsetInRange := Nat.zero_le _
  syncerrInRange := Nat.zero_le _
  aScoreInRange := Nat.zero_le _
  aWorstInRange := Nat.zero_le _
  fieldsOk := fieldRegsOk_resetOf c

/-! ### The updates of the state -/

section
variable {s : State} (h : Inv s)
include h

/-- The invariant says nothing of the model's own bookkeeping and of OVR. -/
theorem inv_withSchedule (ts : List Turn) : Inv { s with schedule := ts } := { h with }
theorem inv_answer (d : Word) : Inv (s.answer d) := { h with }
theorem inv_answerFree (k : RegName) : Inv (s.answerFree k) := { h with }
theorem inv_dropWrite : Inv s.dropWrite := { h with }

theorem inv_storeSample {i : Nat} (hi : i < s.cfg.n) (d : Word) : Inv (s.storeSample i d) :=
  { h with
    memWf := Memory.wf_write i _ h.memWf
    memInBounds := Memory.inBounds_write _ hi h.memInBounds }

theorem inv_rstEdge : Inv s.rstEdge :=
  { inv_resetOf h.cfgValid with
    memWf := h.memWf
    memInBounds := h.memInBounds }

theorem inv_accept (w : Word) : Inv (s.accept w) :=
  { h with
    notBusyAndDone := fun hd => Bool.noConfusion hd.2
    errOnlyWhenDone := fun he => absurd rfl he
    errIsRecorded := fun he => absurd rfl he }

theorem inv_complete : Inv s.complete :=
  { h with
    notBusyAndDone := fun hb => Bool.noConfusion hb.1
    errOnlyWhenDone := fun _ => rfl
    errIsRecorded := fun he => absurd rfl he }

theorem inv_raise (e : CmdError) : Inv (s.raise e) :=
  { h with
    notBusyAndDone := fun hb => Bool.noConfusion hb.1
    errOnlyWhenDone := fun _ => rfl
    errIsRecorded := fun _ => rfl }

theorem inv_setSymScore (y : Symbol) {sc : Nat} (hsc : sc ≤ s.cfg.sps) : Inv (s.setSymScore (symCode y) sc) :=
  { h with
    symLegal := by cases y <;> simp [symCode]
    scoreInRange := (toNat_ofNat_le_self _ _).trans hsc }

theorem inv_setSync {off tot : Nat} (hoff : off ≤ s.cfg.lastCand) (htot : tot ≤ 18 * s.cfg.sps) :
    Inv (s.setSync off tot) :=
  { h with
    offsetInRange := (toNat_ofNat_le_self _ _).trans hoff
    syncerrInRange := (toNat_ofNat_le_self _ _).trans htot }

theorem inv_putField (f : FieldIx) (S : Samples) (fs : Nat) : Inv (s.putField f (decodeField s.cfg S fs f)) :=
  { h with
    fieldsOk := fun g => by
      by_cases hg : g = f
      · subst hg
        exact fieldRegsOk_of_decodeField (s := s.putField g (decodeField s.cfg S fs g)) h.cfgValid
          ((set_get _ g g _).trans (if_pos rfl)) ((set_get _ g g _).trans (if_pos rfl))
          ((set_get _ g g _).trans (if_pos rfl)) ((withFailBit_get _ g g _).trans (if_pos rfl))
      · have := h.fieldsOk g
        simpa only [FieldRegsOk, State.putField, State.setField_fValue, State.setField_fScore, State.setField_fWorst,
          State.setField_fFail, State.setField_cfg, set_get, withFailBit_get, if_neg hg] using this }

theorem inv_putFrame (S : Samples) (fs : Nat) : Inv (s.putFrame S fs) :=
  { h with
    aScoreInRange := (toNat_ofNat_le_self _ _).trans (frameTotal_le h.cfgValid S fs)
    aWorstInRange := (toNat_ofNat_le_self _ _).trans (frameWorst_le h.cfgValid S fs)
    fieldsOk := fun f =>
      fieldRegsOk_of_decodeField (s := s.putFrame S fs) h.cfgValid (fieldArray_get _ f) (fieldArray_get _ f)
        (fieldArray_get _ f) (failBits_get _ f) }

/-! ### The turns -/

theorem inv_commit (i : Instr) : Inv (commit s i) := by
  have hsync := inv_setSync h (findFrame_fst_le s.cfg s.samples) (findFrame_snd_le h.cfgValid s.samples)
  cases i with
  | score sym start =>
    obtain hcommit | ⟨y, hcommit⟩ := commit_score_cases s sym start <;> rw [hcommit]
    · exact h
    · exact inv_setSymScore h y (score_le _ _ _ _)
  | classify start => exact inv_setSymScore h _ (classify_score s.cfg s.samples start ▸ score_le _ _ _ _)
  | findframe => exact hsync
  | decfield f start =>
    obtain hcommit | ⟨g, -, hcommit⟩ := commit_decfield_cases s f start <;> rw [hcommit]
    · exact h
    · exact inv_putField h g s.samples start
  | decframe start => exact inv_putFrame h s.samples start
  | decode => exact inv_putFrame hsync s.samples _

theorem inv_exec {i : Instr} {t : State} (hx : exec i s = .next t) : Inv t := by
  obtain rfl := exec_next_iff.1 hx
  unfold conclude
  split
  · exact inv_complete (inv_commit h i)
  · exact inv_raise h _

theorem inv_engineTurn {t : State} (hx : engineTurn s = .next t) : Inv t := by
  rcases engineTurn_cases s with ⟨-, hidle⟩ | ⟨w, i, -, -, hrun⟩ | ⟨w, r, -, -, hillegal⟩
  · cases hidle.symm.trans hx
    exact h
  · exact inv_exec h (hrun.symm.trans hx)
  · cases hillegal.symm.trans hx
    exact inv_raise h .illegal

theorem inv_busWrite (a : BusAddr) (d : Word) : Inv (s.busWrite a d) := by
  rcases busWrite_cases s a d with ⟨hw, -⟩ | ⟨hw, -⟩ | ⟨i, hi, hw, -⟩ | hw <;> rw [hw]
  · exact inv_accept h d
  · exact inv_dropWrite h
  · exact inv_storeSample h hi d
  · exact h

theorem inv_busRead (a : BusAddr) : Inv (s.busRead a) := by
  rcases busRead_cases s a with ⟨d, hr⟩ | ⟨k, hr⟩ <;> rw [hr]
  · exact inv_answer h d
  · exact inv_answerFree h k

end

/-! ### The obligations -/

/-- Settles O12: every register of the reset state is 0. -/
theorem resetStateMeetsTheRunInvariant : Obligations.ResetStateMeetsTheRunInvariant := fun _ => inv_resetOf

/-- Settles O13, by the kinds of turn that `step_cases` names: each keeps the invariant. -/
theorem stepKeepsTheRunInvariant : Obligations.StepKeepsTheRunInvariant := by
  intro s t h hstep
  obtain ⟨-, ⟨-, he⟩ | ⟨ts, hturn⟩⟩ := step_cases hstep
  · exact inv_engineTurn h he
  · have hu := inv_withSchedule h ts
    rcases hturn with ⟨-, he⟩ | ⟨-, rfl⟩ | ⟨a, size, d, -, -, rfl⟩ | ⟨a, size, -, -, rfl⟩
    · exact inv_engineTurn hu he
    · exact inv_rstEdge hu
    · exact inv_busWrite hu a d
    · exact inv_busRead hu a

end Sys2Proof.Machine
end

section
/-! The registers and the bus (10_state.md R22 – R24, R35 – R37, R46; 20_memory.md R61): what STATUS and the other
registers read as, and the host's turn at the register window and at unmapped addresses. -/

namespace Sys2Proof.Machine

/-! ### STATUS -/

theorem CmdError.code_lt (e : CmdError) : e.code < 4 := by cases e <;> decide

/-- R24: ERR has three bits of STATUS, every other field one. -/
theorem status_fields_lt (s : State) :
    s.busy.toNat < 2 ∧ s.done.toNat < 2 ∧ s.err.code < 4 ∧ s.anyErr.toNat < 2 ∧ s.ovr.toNat < 2 :=
  ⟨Bool.toNat_lt _, Bool.toNat_lt _, CmdError.code_lt _, Bool.toNat_lt _, Bool.toNat_lt _⟩

/-- The five fields of STATUS add up without a carry. -/
theorem statusWord_toNat (s : State) :
    s.statusWord.toNat = s.busy.toNat + 2 * s.done.toNat + 4 * s.err.code + 32 * s.anyErr.toNat + 64 * s.ovr.toNat := by
  have hfields := status_fields_lt s
  rw [State.statusWord, BitVec.toNat_ofNat]
  omega

theorem getLsbD_of_toNat {w : Word} {i : Nat} {b : Bool} (h : w.toNat / 2 ^ i % 2 = b.toNat) : w.getLsbD i = b := by
  rw [← BitVec.testBit_toNat, Nat.testBit_eq_decide_div_mod_eq, h]
  cases b <;> rfl

/-- Settles O50: each field is read off the sum of the fields, the others being small enough. -/
theorem statusWordLayout : Obligations.StatusWordLayout := by
  intro s
  have hsum := statusWord_toNat s
  have hfields := status_fields_lt s
  refine ⟨getLsbD_of_toNat ?_, getLsbD_of_toNat ?_, ?_, getLsbD_of_toNat ?_, getLsbD_of_toNat ?_, ?_,
    CmdError.code_lt s.err⟩
  · omega
  · omega
  · rw [bits, Nat.shiftRight_eq_div_pow]; omega
  · omega
  · omega
  · rw [bits, Nat.shiftRight_eq_div_pow]; omega

/-! ### The register map -/

/-- R35: the constants fit the bus word, and the widths of R22. -/
theorem regValue_cfg_toNat {s : State} (hc : s.cfg.valid = true) :
    (s.regValue .cfgSps).toNat = s.cfg.sps ∧ (s.regValue .cfgN).toNat = s.cfg.n ∧
      (s.regValue .cfgFailscore).toNat = s.cfg.failureScore := by
  have hsps := (Cfg.valid_sps hc).2.2
  have hn := (Cfg.valid_bufsec hc).2
  have hfailure := (Cfg.valid_failureScore hc).2
  simp only [State.regValue, BitVec.toNat_ofNat]
  omega

theorem toNat_setWidth_lt {w : Nat} (v : BitVec w) (hw : w ≤ 32) : (v.setWidth 32).toNat < 2 ^ w := by
  rw [BitVec.toNat_setWidth_of_le hw]
  exact v.isLt

/-- R22: the bits above a register's width read 0. -/
theorem regValue_lt_width {s : State} (hc : s.cfg.valid = true) (k : RegName) :
    (s.regValue k).toNat < 2 ^ k.width := by
  cases k with
  | cmd | reserved => exact Nat.two_pow_pos _
  | aScore => exact s.aScore.isLt
  | status =>
    have hsum := statusWord_toNat s
    have hfields := status_fields_lt s
    simp only [State.regValue, RegName.width]
    omega
  | cfgSps | cfgN | cfgFailscore =>
    have hvalues := regValue_cfg_toNat hc
    have hsps := (Cfg.valid_sps hc).2.2
    have hn := (Cfg.valid_bufsec hc).2
    have hfailure := (Cfg.valid_failureScore hc).2
    simp only [RegName.width]
    omega
  | _ => exact toNat_setWidth_lt _ (by decide)

theorem regOf_reserved {r : Nat} (h : (9 ≤ r ∧ r ≤ 15) ∨ r = 23 ∨ r = 31 ∨ r = 39 ∨ (43 ≤ r ∧ r ≤ 63)) :
    regOf r = .reserved := by
  have hall : ∀ r < 64, ((9 ≤ r ∧ r ≤ 15) ∨ r = 23 ∨ r = 31 ∨ r = 39 ∨ (43 ≤ r ∧ r ≤ 63)) → regOf r = .reserved := by
    decide
  exact hall r (by omega) h

/-! ### The host's turn -/

section
variable {s : State} {a : BusAddr} {d : Word} {ts : List Turn} (hc : s.cfg.valid = true) (ha : a.toNat % 4 = 0)
include hc ha

theorem step_of_write (hs : s.schedule = .write a 4 d :: ts) :
    step s = .next (State.busWrite { s with schedule := ts } a d) := by
  rw [step_of_turn hc hs]
  exact ifAligned_of_aligned (by simp [alignedWord, ha]) _

theorem step_of_read (hs : s.schedule = .read a 4 :: ts) :
    step s = .next (State.busRead { s with schedule := ts } a) := by
  rw [step_of_turn hc hs]
  exact ifAligned_of_aligned (by simp [alignedWord, ha]) _

end

theorem busTarget_unmapped {c : Cfg} {a : BusAddr} (hlow : 0x100 ≤ a.toNat)
    (h : a.toNat < 0x4000000 ∨ 0x4000000 + 4 * c.n ≤ a.toNat) : busTarget c a = .unmapped := by
  have hbase : sampleBase = 0x4000000 := rfl
  rw [busTarget, if_neg (by omega), if_neg (by omega)]

theorem busTarget_of_lt {c : Cfg} {a : BusAddr} (h : a.toNat < 0x100) : busTarget c a = .reg (a.toNat / 4) := if_pos h

theorem busWrite_cmd (s : State) (d : Word) : s.busWrite 0 d = bif s.busy then s.dropWrite else s.accept d := rfl

theorem busWrite_unmapped {s : State} {a : BusAddr} (h : busTarget s.cfg a = .unmapped) (d : Word) :
    s.busWrite a d = s := by simp only [State.busWrite, h]

/-- R36, R37: a register that is not `CMD` takes no write. -/
theorem busWrite_other_register {s : State} {a : BusAddr} {r : Nat} (h : busTarget s.cfg a = .reg r) (hr : r ≠ 0)
    (d : Word) : s.busWrite a d = s := by
  simp only [State.busWrite, h]
  split
  · next hcmd => exact absurd (regOf_eq_cmd.1 hcmd) hr
  · rfl

theorem busRead_unmapped {s : State} {a : BusAddr} (h : busTarget s.cfg a = .unmapped) : s.busRead a = s.answer 0 := by
  simp only [State.busRead, h]

theorem busRead_register_idle {s : State} {r : Nat} (hr : r < 64) (hb : s.busy = false) :
    s.busRead (BitVec.ofNat 27 (4 * r)) = s.answer (s.regValue (regOf r)) := by
  simp [State.busRead, busTarget_register s.cfg hr, hb]

/-! ### The obligations -/

/-- Settles O10, register by register. -/
theorem resetStateReadsAsSpecified : Obligations.ResetStateReadsAsSpecified := by
  intro c hc
  obtain ⟨hvalueSps, hvalueN, hvalueFailure⟩ := regValue_cfg_toNat (s := State.resetOf c) hc
  refine ⟨rfl, fun k hsps hn hfailure => ?_, hvalueSps, hvalueN, hvalueFailure, fun i => rfl⟩
  cases k with
  | cfgSps => exact absurd rfl hsps
  | cfgN => exact absurd rfl hn
  | cfgFailscore => exact absurd rfl hfailure
  | fValue f | fScore f | fWorst f => fin_cases f <;> rfl
  | _ => rfl

/-- Settles O49: register number 0 is `CMD`, and an idle engine accepts. -/
theorem commandWriteIsAccepted : Obligations.CommandWriteIsAccepted := by
  intro s w ts hc hb hs
  rw [step_of_write hc rfl hs, busWrite_cmd]
  have hu : State.busy { s with schedule := ts } = false := hb
  rw [hu]
  rfl

/-- Settles O53: the read is the bus read of register `r`, and `regOf` is checked number by number. -/
theorem registerMapReads : Obligations.RegisterMapReads := by
  refine ⟨fun s r ts hinv hr hb hs => ⟨?_, regValue_lt_width hinv.cfgValid _⟩, rfl, by decide, fun r => regOf_reserved,
    fun s => ⟨rfl, rfl, rfl, ?_, ?_, ?_, ?_, rfl, ?_, ?_, fun f => ⟨?_, ?_, ?_⟩, regValue_cfg_toNat⟩⟩
  · have haddr : (BitVec.ofNat 27 (4 * r)).toNat % 4 = 0 := by
      rw [BitVec.toNat_ofNat]; omega
    exact (step_of_read hinv.cfgValid haddr hs).trans (congrArg _ (busRead_register_idle hr hb))
  all_goals exact BitVec.toNat_setWidth_of_le (by decide)

/-- Settles O54: the address selects a register number above 0, or nothing. -/
theorem otherBusAccessesHaveNoEffect : Obligations.OtherBusAccessesHaveNoEffect := by
  intro s a d ts hc ha
  refine ⟨fun hlow hout hs => (step_of_write hc ha hs).trans (congrArg _ ?_), fun hlow hout hs =>
    (step_of_read hc ha hs).trans (congrArg _ (busRead_unmapped (busTarget_unmapped hlow hout)))⟩
  by_cases hreg : a.toNat < 0x100
  · exact busWrite_other_register (busTarget_of_lt hreg) (by omega) d
  · exact busWrite_unmapped (s := { s with schedule := ts }) (busTarget_unmapped (Nat.not_lt.1 hreg) hout) d

end Sys2Proof.Machine
end
section
/-! Every run ends idle (10_state.md R42; 41_frame_synchronizer.md R150): a turn takes one entry of the schedule, and
the engine's turn clears BUSY. -/

namespace Sys2Proof.Machine

theorem engineTurn_ends {s t : State} (h : engineTurn s = .next t) : t.busy = false ∧ t.schedule = s.schedule := by
  rcases engineTurn_cases s with ⟨hidle, he⟩ | ⟨w, i, -, -, he⟩ | ⟨w, r, -, -, he⟩
  · cases he.symm.trans h
    exact ⟨by rw [State.busy, hidle]; rfl, rfl⟩
  · have hx := he.symm.trans h
    obtain ⟨u, hu, hbusy, -⟩ := everyOperationCompletes i s
    cases hu.symm.trans hx
    exact ⟨hbusy, (exec_keepsTheRest hx).schedule⟩
  · cases he.symm.trans h
    exact ⟨rfl, rfl⟩

theorem takeTurn_keeps_schedule {tn : Turn} {s t : State} (h : takeTurn tn s = .next t) : t.schedule = s.schedule := by
  cases tn with
  | write a size d =>
    obtain rfl := ifAligned_next h
    rcases busWrite_cases s a d with ⟨hw, -⟩ | ⟨hw, -⟩ | ⟨i, -, hw, -⟩ | hw <;> simp [hw]
  | read a size =>
    obtain rfl := ifAligned_next h
    rcases busRead_cases s a with ⟨d, hr⟩ | ⟨k, hr⟩ <;> simp [hr]
  | rst => cases h; rfl
  | engine => exact (engineTurn_ends h).2

theorem run_succ_of_step {s t : State} (h : step s = .next t) (k : Nat) :
    Sys2Proof.core.run (k + 1) s = Sys2Proof.core.run k t := by
  have hcore : Sys2Proof.core.step s = .next t := h
  simp only [Host.Core.run, hcore]

/-- Settles O16, by induction on the turns the host still has: one goes with every step. -/
theorem busyAlwaysEnds : Obligations.BusyAlwaysEnds := by
  intro s hc hm
  induction hs : s.schedule generalizing s with
  | nil =>
    obtain ⟨t, ht⟩ := engineTurn_answers_next s
    obtain ⟨hbusy, hsched⟩ := engineTurn_ends ht
    exact ⟨t, run_succ_of_step ((step_of_no_turn hc hs).trans ht) 0, hbusy, hsched.trans hs⟩
  | cons tn ts ih =>
    rw [hs, List.all_cons, Bool.and_eq_true] at hm
    obtain ⟨u, hu⟩ := takeTurn_answers_next hm.1 { s with schedule := ts }
    have hstep : step s = .next u := (step_of_turn hc hs).trans hu
    have hsched : u.schedule = ts := takeTurn_keeps_schedule hu
    have hcfg := configurationNeverChanges s u hstep
    obtain ⟨t, hrun, hend⟩ := ih u (hcfg ▸ hc) (hsched ▸ hm.2) hsched
    exact ⟨t, (run_succ_of_step hstep _).trans hrun, hend⟩

end Sys2Proof.Machine
end

section
/-! The host's sample port (20_memory.md R70 – R72, R77): what a bus access to a sample cell does, what a capture written
in order leaves in the cells, and that no step changes a cell while an operation runs. -/

namespace Sys2Proof.Machine

/-! ### One access to a sample cell -/

theorem cellAddr_aligned (i : Nat) : (BitVec.ofNat 27 (0x4000000 + 4 * i)).toNat % 4 = 0 := by
  rw [BitVec.toNat_ofNat]
  omega

section
variable {s : State} {i : Nat} {ts : List Turn} (hc : s.cfg.valid = true) (hi : i < s.cfg.n)
include hc hi

theorem busWrite_cell (d : Word) :
    s.busWrite (BitVec.ofNat 27 (0x4000000 + 4 * i)) d = bif s.busy then s.dropWrite else s.storeSample i d := by
  simp only [State.busWrite, busTarget_cell hc hi]

theorem busRead_cell :
    s.busRead (BitVec.ofNat 27 (0x4000000 + 4 * i)) = s.answer (BitVec.ofNat 32 (s.sample i).toNat) := by
  simp only [State.busRead, busTarget_cell hc hi]

theorem step_of_cell_write {d : Word} (hs : s.schedule = .write (BitVec.ofNat 27 (0x4000000 + 4 * i)) 4 d :: ts) :
    step s = .next (bif s.busy then State.dropWrite { s with schedule := ts }
      else State.storeSample { s with schedule := ts } i d) :=
  (step_of_write hc (cellAddr_aligned i) hs).trans
    (congrArg _ (busWrite_cell (s := { s with schedule := ts }) hc hi d))

/-- R70. -/
theorem step_of_cell_write_idle {d : Word} (hb : s.busy = false)
    (hs : s.schedule = .write (BitVec.ofNat 27 (0x4000000 + 4 * i)) 4 d :: ts) :
    step s = .next (State.storeSample { s with schedule := ts } i d) := by
  rw [step_of_cell_write hc hi hs, hb, cond_false]

/-- R241. -/
theorem step_of_cell_write_busy {d : Word} (hb : s.busy = true)
    (hs : s.schedule = .write (BitVec.ofNat 27 (0x4000000 + 4 * i)) 4 d :: ts) :
    step s = .next (State.dropWrite { s with schedule := ts }) := by
  rw [step_of_cell_write hc hi hs, hb, cond_true]

end

/-! ### A capture -/

/-- The sample space after a capture was written in order to cells `i`, `i + 1`, … (R72). -/
def Memory.load (m : Memory) : Nat → List Sample → Memory
  | _, [] => m
  | i, b :: bs => Memory.load (m.write i b) (i + 1) bs

theorem getLsbD_zero_ofNat_toNat (b : Sample) : (BitVec.ofNat 32 b.toNat).getLsbD 0 = b := by cases b <;> rfl

theorem sample_load (s : State) (i : Nat) (bs : List Sample) (j : Nat) :
    State.sample { s with smp := s.smp.load i bs } j =
      if i ≤ j then (bs[j - i]?).getD (s.sample j) else s.sample j := by
  induction bs generalizing s i with
  | nil => simp [Memory.load]
  | cons b bs ih =>
    refine (ih { s with smp := s.smp.write i b } (i + 1)).trans ?_
    rw [sample_write]
    obtain hlt | rfl | hgt := Nat.lt_trichotomy j i
    · rw [if_neg (by omega), if_neg (by omega), if_neg (by omega)]
    · simp
    · have hstep : j - i = j - (i + 1) + 1 := by omega
      rw [if_pos (by omega), if_neg (by omega), if_pos (by omega), hstep, List.getElem?_cons_succ]

/-- A capture that fits, by induction on its samples: each turn writes one of them. -/
theorem run_loadFrom {s : State} {i : Nat} {bs : List Sample} {ts : List Turn} (hc : s.cfg.valid = true)
    (hb : s.busy = false) (hfits : i + bs.length ≤ s.cfg.n) (hs : s.schedule = loadFrom i bs ++ ts) :
    Sys2Proof.core.run bs.length s = .next { s with smp := s.smp.load i bs, schedule := ts } := by
  induction bs generalizing s i with
  | nil =>
    subst hs
    rfl
  | cons b bs ih =>
    rw [List.length_cons] at hfits
    have hstep := step_of_cell_write_idle (i := i) hc (by omega) hb hs
    rw [State.storeSample, getLsbD_zero_ofNat_toNat] at hstep
    refine (run_succ_of_step hstep _).trans ?_
    exact ih (i := i + 1) hc hb (by simp only; omega) rfl

/-! ### While an operation runs -/

theorem exec_keeps_smp {i : Instr} {s t : State} (h : exec i s = .next t) : t.smp = s.smp := by
  obtain rfl := exec_next_iff.1 h
  unfold conclude
  split
  · exact commit_smp s i
  · rfl

theorem engineTurn_keeps_smp {s t : State} (h : engineTurn s = .next t) : t.smp = s.smp := by
  rcases engineTurn_cases s with ⟨-, hidle⟩ | ⟨w, i, -, -, hrun⟩ | ⟨w, r, -, -, hillegal⟩
  · cases hidle.symm.trans h
    rfl
  · exact exec_keeps_smp (hrun.symm.trans h)
  · cases hillegal.symm.trans h
    rfl

@[simp] theorem State.busRead_smp (s : State) (a : BusAddr) : (s.busRead a).smp = s.smp := by
  rcases busRead_cases s a with ⟨d, h⟩ | ⟨k, h⟩ <;> simp [h]

/-- R241: the one write that reaches a cell is a write to an idle engine. -/
theorem busWrite_keeps_smp_of_busy {s : State} (hb : s.busy = true) (a : BusAddr) (d : Word) :
    (s.busWrite a d).smp = s.smp := by
  rcases busWrite_cases s a d with ⟨h, -⟩ | ⟨h, -⟩ | ⟨i, -, -, hidle⟩ | h
  · rw [h, State.accept_smp]
  · rw [h, State.dropWrite_smp]
  · exact absurd (hb.symm.trans hidle) (by decide)
  · rw [h]

theorem step_keeps_smp_of_busy {s t : State} (hb : s.busy = true) (h : step s = .next t) : t.smp = s.smp := by
  obtain ⟨-, ⟨-, he⟩ | ⟨ts, ⟨-, he⟩ | ⟨-, rfl⟩ | ⟨a, size, d, -, -, rfl⟩ | ⟨a, size, -, -, rfl⟩⟩⟩ := step_cases h
  · exact engineTurn_keeps_smp he
  · simpa only using engineTurn_keeps_smp he
  · exact State.rstEdge_smp _
  · exact busWrite_keeps_smp_of_busy (s := { s with schedule := ts }) hb a d
  · exact State.busRead_smp _ a

/-! ### The obligations -/

/-- Settles O15: by the kinds of turn that `step_cases` names, each keeps the sample space while busy. -/
theorem samplesDoNotChangeWhileBusy : Obligations.SamplesDoNotChangeWhileBusy := by
  refine ⟨fun s t hb h a => ?_, fun s i d ts hc hb hi hs => ⟨_, step_of_cell_write_busy hc hi hb hs, rfl⟩⟩
  rw [State.sample, State.sample, step_keeps_smp_of_busy hb h]

/-- Settles O51: the address selects cell `i`, which is stored while idle; while busy the write is dropped. -/
theorem hostWritesOneSample : Obligations.HostWritesOneSample := by
  intro s i d ts hc hi hs
  cases hb : s.busy with
  | false =>
    refine ⟨_, step_of_cell_write_idle hc hi hb hs, fun _ => ⟨fun j => ?_, rfl⟩, (nomatch ·)⟩
    exact sample_write { s with schedule := ts } i j (d.getLsbD 0)
  | true => exact ⟨_, step_of_cell_write_busy hc hi hb hs, (nomatch ·), fun _ => rfl⟩

/-- Settles O52: the address selects cell `i`, and BUSY plays no part in the answer. -/
theorem hostReadsOneSample : Obligations.HostReadsOneSample := by
  intro s i ts hc hi hs
  have hbit : BitVec.ofNat 32 (s.sample i).toNat = if s.sample i then 1 else 0 := by cases s.sample i <;> rfl
  rw [step_of_read hc (cellAddr_aligned i) hs, busRead_cell (s := { s with schedule := ts }) hc hi, ← hbit]
  rfl

/-- Settles O57: the turns of a capture load it from cell 0 on. -/
theorem loadedCaptureIsInTheCells : Obligations.LoadedCaptureIsInTheCells := by
  intro s bs ts hc hb hlen hs
  refine ⟨_, run_loadFrom hc hb (by omega) hs, fun k => ?_, rfl⟩
  exact (sample_load { s with schedule := ts } 0 bs k).trans (if_pos (Nat.zero_le k))

end Sys2Proof.Machine
end

section
/-! What a result depends on (20_memory.md R73): each function of the matcher, the synchronizer and the field decoder
returns the same from two sample spaces that agree on the spans it names, and so each operation commits the same. -/

namespace Sys2Proof.Machine

section
variable {c : Cfg} {S T : Samples}

/-! ### The Frame Synchronizer -/

theorem entryScore_congr {c0 : Nat} {e : FixedPos} (he : e ∈ c.fixmap)
    (h : ∀ k, inFixedSpans c c0 k → S.at k = T.at k) : entryScore c S c0 e = entryScore c T c0 e :=
  score_congr e.sym fun k hlo hhi => h k ⟨e, he, hlo, hhi⟩

theorem syncTotal_congr {c0 : Nat} (h : ∀ k, inFixedSpans c c0 k → S.at k = T.at k) :
    syncTotal c S c0 = syncTotal c T c0 :=
  congrArg List.sum (List.map_congr_left fun _ he => entryScore_congr he h)

theorem candidateTotal_congr {c0 : Nat} (best : Nat) {es : List FixedPos} (total : Nat)
    (h : ∀ e ∈ es, entryScore c S c0 e = entryScore c T c0 e) :
    candidateTotal c S best c0 es total = candidateTotal c T best c0 es total := by
  induction es generalizing total with
  | nil => rfl
  | cons e es ih =>
    obtain ⟨he, hes⟩ := List.forall_mem_cons.1 h
    simp only [candidateTotal, forced_eq, he, ih _ hes]

theorem searchFrom_congr {k c0 : Nat} (best : Nat × Nat)
    (h : ∀ c1, c1 < c0 + k → ∀ j, inFixedSpans c c1 j → S.at j = T.at j) :
    searchFrom c S k c0 best = searchFrom c T k c0 best := by
  induction k generalizing c0 best with
  | zero => rfl
  | succ k ih =>
    have hcand : candidateTotal c S best.2 c0 c.fixmap 0 = candidateTotal c T best.2 c0 c.fixmap 0 :=
      candidateTotal_congr _ _ fun e he => entryScore_congr he (h c0 (by omega))
    have hrest := fun best => ih (c0 := c0 + 1) best fun c1 hc1 => h c1 (by omega)
    simp only [searchFrom, hcand, hrest]

theorem findFrame_congr (h : ∀ k, (∃ c0, c0 ≤ c.lastCand ∧ inFixedSpans c c0 k) → S.at k = T.at k) :
    findFrame c S = findFrame c T := by
  have hcand : ∀ c0, c0 ≤ c.lastCand → ∀ k, inFixedSpans c c0 k → S.at k = T.at k := fun c0 hc0 k hk =>
    h k ⟨c0, hc0, hk⟩
  rw [findFrame, findFrame, syncTotal_congr (hcand 0 (Nat.zero_le _))]
  exact searchFrom_congr _ fun c1 hc1 => hcand c1 (by omega)

/-! ### The Field Decoder -/

theorem decodePairs_congr {fs : Nat} {es : List CodePair} (value sc worst : Nat)
    (h : ∀ e ∈ es, classify c S (spanStart c fs e.pos) = classify c T (spanStart c fs e.pos)) :
    decodePairs c S fs es value sc worst = decodePairs c T fs es value sc worst := by
  induction es generalizing value sc worst with
  | nil => rfl
  | cons e es ih =>
    obtain ⟨he, hes⟩ := List.forall_mem_cons.1 h
    simp only [decodePairs, he, ih _ _ _ hes]

theorem decodeField_congr {fs : Nat} {f : FieldIx} (h : ∀ k, inFieldSpans c fs f k → S.at k = T.at k) :
    decodeField c S fs f = decodeField c T fs f :=
  decodePairs_congr _ _ _ fun e he => classify_congr fun k hlo hhi => h k ⟨e, he, hlo, hhi⟩

theorem putFrame_congr {s : State} {fs : Nat}
    (h : ∀ k, (∃ g : FieldIx, inFieldSpans s.cfg fs g k) → S.at k = T.at k) : s.putFrame S fs = s.putFrame T fs := by
  have hfields : decodeField s.cfg S fs = decodeField s.cfg T fs :=
    funext fun g => decodeField_congr fun k hk => h k ⟨g, hk⟩
  simp only [State.putFrame, frameTotal, frameWorst, frameResults, hfields]

end

/-! ### The operations -/

section
variable {i : Instr} {s : State} {m : Memory}
  (h : ∀ k, dependsOnCell s.cfg (findFrame s.cfg s.samples).1 i k →
    (State.samples { s with smp := m }).at k = s.samples.at k)
include h

/-- R73: from a memory that agrees with the state's on the operation's cells, the operation commits the same. -/
theorem commit_withMemory : commit { s with smp := m } i = { commit s i with smp := m } := by
  cases i with
  | score sym start =>
    simp only [commit]
    split
    · rfl
    · next y _ =>
      rw [score_congr y fun k hlo hhi => h k ⟨hlo, hhi⟩]
      rfl
  | classify start =>
    simp only [commit]
    rw [classify_congr fun k hlo hhi => h k ⟨hlo, hhi⟩]
    rfl
  | findframe =>
    simp only [commit]
    rw [findFrame_congr h]
    rfl
  | decfield f start =>
    simp only [commit]
    split
    · rfl
    · next g hg =>
      rw [decodeField_congr fun k hk => h k ⟨g, fieldOf?_eq_some.1 hg, hk⟩]
      rfl
  | decframe start => exact putFrame_congr h
  | decode =>
    simp only [commit]
    rw [findFrame_congr fun k hk => h k (.inl hk)]
    exact putFrame_congr fun k hk => h k (.inr hk)

/-- Whether an operation raises an error depends on no sample, and what it commits only on those of R73. -/
theorem conclude_withMemory : conclude { s with smp := m } i = { conclude s i with smp := m } := by
  by_cases herr : errorOf s.cfg i = .noError
  · rw [conclude_of_noError herr, conclude_of_noError (s := { s with smp := m }) herr, commit_withMemory h]
    rfl
  · rw [conclude_of_error herr, conclude_of_error (s := { s with smp := m }) herr]
    rfl

end

/-- R73: with the positions 0 and 59 in FIXMAP, a cell up to LASTCAND is the first of the span of position 0 for its own
candidate, and a later one the last of the span of position 59. -/
theorem wce1_search_depends_on_every_cell {k : Nat} (hk : k < 4800) : dependsOnCell Cfg.wce1 0 .findframe k := by
  have hspan : ∀ c0 p, inSpan Cfg.wce1 (spanStart Cfg.wce1 c0 p) k ↔ c0 + p * 40 ≤ k ∧ k < c0 + p * 40 + 40 :=
    fun _ _ => Iff.rfl
  have hlast : Cfg.wce1.lastCand = 2400 := rfl
  by_cases hfirst : k ≤ 2400
  · exact ⟨k, by omega, ⟨0, .marker⟩, by decide, (hspan k 0).2 (by omega)⟩
  · exact ⟨k - 2399, by omega, ⟨59, .marker⟩, by decide, (hspan _ 59).2 (by omega)⟩

/-- Settles O44: the operation concludes alike from both memories, and the WCE-1 table covers every cell. -/
theorem resultsDependOnListedCells : Obligations.ResultsDependOnListedCells := by
  refine ⟨fun i s t m h hexec => ?_, fun k => wce1_search_depends_on_every_cell⟩
  obtain rfl := exec_next_iff.1 hexec
  refine exec_next_iff.2 (conclude_withMemory fun k hk => ?_).symm
  rw [samples_at, samples_at, h k hk]

end Sys2Proof.Machine
end

section
/-! The command word (30_encoding.md R90 – R96): the words of each row as an interval and by their fields, the decoder by
the row that matches, and the encoder as its inverse. -/

namespace Sys2Proof.Machine

theorem bits_eq (w : Word) (hi lo : Nat) : bits w hi lo = w.toNat / 2 ^ lo % 2 ^ (hi + 1 - lo) := by
  rw [bits, Nat.shiftRight_eq_div_pow]

theorem bits_lt (w : Word) (hi lo : Nat) : bits w hi lo < 2 ^ (hi + 1 - lo) := Nat.mod_lt _ (Nat.two_pow_pos _)

/-! ### The rows of the opcode map -/

/-- A row's value of `w[31:28]` (R95). -/
def opValue : Op → Nat
  | .score => 1
  | .classify => 2
  | .findframe => 3
  | .decfield => 4
  | .decframe => 5
  | .decode => 6

/-- How many low bits of a row's words hold operands (R95). -/
def operandBits : Op → Nat
  | .score => 26
  | .classify => 24
  | .findframe => 0
  | .decfield => 27
  | .decframe => 24
  | .decode => 0

theorem mask_eq (o : Op) : o.mask = BitVec.allOnes 32 <<< operandBits o := by cases o <;> rfl

theorem pattern_toNat (o : Op) : o.pattern.toNat = opValue o * 2 ^ 28 := by cases o <;> rfl

theorem forall_op_iff {P : Op → Prop} :
    (∀ o, P o) ↔ P .score ∧ P .classify ∧ P .findframe ∧ P .decfield ∧ P .decframe ∧ P .decode :=
  ⟨fun h => ⟨h _, h _, h _, h _, h _, h _⟩, fun ⟨h1, h2, h3, h4, h5, h6⟩ o => by cases o <;> assumption⟩

theorem exists_op_iff {P : Op → Prop} :
    (∃ o, P o) ↔ P .score ∨ P .classify ∨ P .findframe ∨ P .decfield ∨ P .decframe ∨ P .decode := by
  rw [← not_iff_not]
  simp only [not_exists, not_or, forall_op_iff]

/-- The words of a row are the interval from its pattern on that its operand bits span. -/
theorem selects_iff_toNat {o : Op} {w : Word} :
    o.selects w = true ↔
      opValue o * 2 ^ 28 ≤ w.toNat ∧ w.toNat < opValue o * 2 ^ 28 + 2 ^ operandBits o := by
  have hdiv : w.toNat / 2 ^ operandBits o * 2 ^ operandBits o < 2 ^ 32 :=
    (Nat.div_mul_le_self _ _).trans_lt w.isLt
  rw [Op.selects, beq_iff_eq, mask_eq, ← BitVec.shiftLeft_ushiftRight, ← BitVec.toNat_inj, pattern_toNat,
    BitVec.toNat_shiftLeft, BitVec.toNat_ushiftRight, Nat.shiftLeft_eq, Nat.shiftRight_eq_div_pow,
    Nat.mod_eq_of_lt hdiv]
  cases o <;> simp only [opValue, operandBits] <;> omega

/-- R95: a row's words have its `op` value, and zeros between `op` and the operands. -/
theorem selects_iff_bits {o : Op} {w : Word} :
    o.selects w = true ↔ bits w 31 28 = opValue o ∧ bits w 27 (operandBits o) = 0 := by
  have hw := w.isLt
  rw [selects_iff_toNat, bits_eq, bits_eq]
  cases o <;> simp only [opValue, operandBits] <;> omega

theorem opValue_injective {o p : Op} (h : opValue o = opValue p) : o = p := by
  revert o p
  simp [forall_op_iff, opValue]

/-- R91: at most one row matches. -/
theorem selects_unique {o p : Op} {w : Word} (ho : o.selects w = true) (hp : p.selects w = true) : p = o :=
  opValue_injective ((selects_iff_bits.1 hp).1.symm.trans (selects_iff_bits.1 ho).1)

/-! ### The decoder -/

theorem op_mem_all (o : Op) : o ∈ Op.all := by cases o <;> decide

theorem decode_of_selects {o : Op} {w : Word} (h : o.selects w = true) : decode w = .ok (o.operands w) := by
  unfold decode
  split
  · next p hp =>
    have hsel : p.selects w = true := List.find?_some (p := fun q : Op => q.selects w) hp
    rw [selects_unique h hsel]
  · next hnone => exact absurd h (List.find?_eq_none.1 hnone o (op_mem_all o))

theorem decode_of_no_row {w : Word} (h : ∀ o : Op, o.selects w = false) : decode w = .error (illegalKind w) := by
  unfold decode
  split
  · next p hp =>
    have hsel : p.selects w = true := List.find?_some (p := fun q : Op => q.selects w) hp
    exact absurd hsel (Bool.eq_false_iff.1 (h p))
  · rfl

theorem one_row_or_none (w : Word) : (∃ o : Op, o.selects w = true) ∨ ∀ o : Op, o.selects w = false := by
  simpa only [not_exists, Bool.not_eq_true] using em (∃ o : Op, o.selects w = true)

/-- Settles O3: a matching row is the only one, and the decoder answers by it. -/
theorem oneRowMatchesOrWordIsIllegal : Obligations.OneRowMatchesOrWordIsIllegal := by
  intro w
  rcases one_row_or_none w with ⟨o, h⟩ | h
  · exact .inl ⟨o, h, fun p hp => selects_unique h hp, decode_of_selects h⟩
  · exact .inr ⟨h, _, decode_of_no_row h⟩

/-- The row of an instruction (R95). -/
def rowOf : Instr → Op
  | .score _ _ => .score
  | .classify _ => .classify
  | .findframe => .findframe
  | .decfield _ _ => .decfield
  | .decframe _ => .decframe
  | .decode => .decode

theorem rowOf_operands (o : Op) (w : Word) : rowOf (o.operands w) = o := by cases o <;> rfl

/-- A word decodes to an instruction exactly when the instruction's row matches and its operands are the word's. -/
theorem decode_eq_ok_iff {w : Word} {i : Instr} :
    decode w = .ok i ↔ (rowOf i).selects w = true ∧ (rowOf i).operands w = i := by
  refine ⟨fun h => ?_, fun ⟨hsel, hops⟩ => (decode_of_selects hsel).trans (congrArg _ hops)⟩
  rcases one_row_or_none w with ⟨o, ho⟩ | hnone
  · cases (decode_of_selects ho).symm.trans h
    rw [rowOf_operands]
    exact ⟨ho, rfl⟩
  · cases (decode_of_no_row hnone).symm.trans h

/-! ### The encoder -/

/-- What `w[27:0]` holds for an instruction (R93). -/
def operandField : Instr → Nat
  | .score sym start => sym * 2 ^ 24 + start
  | .classify start => start
  | .findframe => 0
  | .decfield f start => f * 2 ^ 24 + start
  | .decframe start => start
  | .decode => 0

theorem score_wf_iff {sym start : Nat} : (Instr.score sym start).wf = true ↔ sym < 4 ∧ start < 2 ^ 24 := by
  simp only [Instr.wf, symFits, startFits, Bool.and_eq_true, decide_eq_true_eq]

theorem classify_wf_iff {start : Nat} : (Instr.classify start).wf = true ↔ start < 2 ^ 24 := by
  simp only [Instr.wf, startFits, decide_eq_true_eq]

theorem decfield_wf_iff {f start : Nat} : (Instr.decfield f start).wf = true ↔ f < 8 ∧ start < 2 ^ 24 := by
  simp only [Instr.wf, fieldFits, startFits, Bool.and_eq_true, decide_eq_true_eq]

theorem decframe_wf_iff {start : Nat} : (Instr.decframe start).wf = true ↔ start < 2 ^ 24 := by
  simp only [Instr.wf, startFits, decide_eq_true_eq]

theorem operandField_lt {i : Instr} (h : i.wf = true) : operandField i < 2 ^ operandBits (rowOf i) := by
  cases i with
  | score sym start => have := score_wf_iff.1 h; simp only [operandField, rowOf, operandBits]; omega
  | classify start => exact classify_wf_iff.1 h
  | findframe => decide
  | decfield f start => have := decfield_wf_iff.1 h; simp only [operandField, rowOf, operandBits]; omega
  | decframe start => exact decframe_wf_iff.1 h
  | decode => decide

theorem encode_toNat {i : Instr} (h : i.wf = true) :
    (encode i).toNat = opValue (rowOf i) * 2 ^ 28 + operandField i := by
  have hlt := operandField_lt h
  cases i <;>
    simp only [encode, rowOf, opValue, operandField, operandBits, BitVec.toNat_ofNat, Nat.shiftLeft_eq] at hlt ⊢ <;>
    omega

theorem selects_encode {i : Instr} (h : i.wf = true) : (rowOf i).selects (encode i) = true := by
  have hlt := operandField_lt h
  rw [selects_iff_toNat, encode_toNat h]
  omega

theorem operands_encode {i : Instr} (h : i.wf = true) : (rowOf i).operands (encode i) = i := by
  have hw := encode_toNat h
  cases i with
  | score sym start =>
    have := score_wf_iff.1 h
    simp only [rowOf, Op.operands, bits_eq, hw, opValue, operandField, Instr.score.injEq]
    omega
  | classify start =>
    have := classify_wf_iff.1 h
    simp only [rowOf, Op.operands, bits_eq, hw, opValue, operandField, Instr.classify.injEq]
    omega
  | findframe => rfl
  | decfield f start =>
    have := decfield_wf_iff.1 h
    simp only [rowOf, Op.operands, bits_eq, hw, opValue, operandField, Instr.decfield.injEq]
    omega
  | decframe start =>
    have := decframe_wf_iff.1 h
    simp only [rowOf, Op.operands, bits_eq, hw, opValue, operandField, Instr.decframe.injEq]
    omega
  | decode => rfl

theorem decode_encode {i : Instr} (h : i.wf = true) : decode (encode i) = .ok i :=
  decode_eq_ok_iff.2 ⟨selects_encode h, operands_encode h⟩

theorem operands_wf (o : Op) (w : Word) : (o.operands w).wf = true := by
  cases o with
  | score => exact score_wf_iff.2 ⟨bits_lt w 25 24, bits_lt w 23 0⟩
  | classify => exact classify_wf_iff.2 (bits_lt w 23 0)
  | findframe => rfl
  | decfield => exact decfield_wf_iff.2 ⟨bits_lt w 26 24, bits_lt w 23 0⟩
  | decframe => exact decframe_wf_iff.2 (bits_lt w 23 0)
  | decode => rfl

theorem encode_operands {o : Op} {w : Word} (h : o.selects w = true) : encode (o.operands w) = w := by
  obtain ⟨hlo, hhi⟩ := selects_iff_toNat.1 h
  apply BitVec.eq_of_toNat_eq
  rw [encode_toNat (operands_wf o w), rowOf_operands]
  cases o <;> simp only [Op.operands, operandField, opValue, operandBits, bits_eq] at * <;> omega

theorem wf_of_decode {w : Word} {i : Instr} (h : decode w = .ok i) : i.wf = true := by
  rw [← (decode_eq_ok_iff.1 h).2]
  exact operands_wf _ w

theorem encode_of_decode {w : Word} {i : Instr} (h : decode w = .ok i) : encode i = w := by
  obtain ⟨hsel, hops⟩ := decode_eq_ok_iff.1 h
  rw [← hops]
  exact encode_operands hsel

/-- Settles O1: the word of an instruction lies in its row and carries its operands, and a word is its row's pattern with
its operand fields. -/
theorem decodeEncodeRoundTrip : Obligations.DecodeEncodeRoundTrip :=
  ⟨fun _ => decode_encode, fun _ _ h => ⟨wf_of_decode h, encode_of_decode h⟩⟩

/-! ### The illegal words -/

/-- The kind of R96 for the illegal words with a row's `op` value. -/
def illegalKindOf : Op → IllegalWord
  | .score => .scoreSelHigh
  | .classify => .selNotZero
  | .findframe => .operandsNotZero
  | .decfield => .fieldSelHigh
  | .decframe => .selNotZero
  | .decode => .operandsNotZero

theorem illegalKind_of_opValue {o : Op} {w : Word} (h : bits w 31 28 = opValue o) :
    illegalKind w = illegalKindOf o := by
  cases o <;> simp only [illegalKind, h, opValue, illegalKindOf]

theorem illegalKind_of_no_opValue {w : Word} (h : ∀ o, bits w 31 28 ≠ opValue o) : illegalKind w = .noSuchOp := by
  obtain ⟨h1, h2, h3, h4, h5, h6⟩ := forall_op_iff.1 h
  unfold illegalKind
  split <;> trivial

/-- R96: a word is illegal because no row has its `op` value, or because the row that has it finds a bit set between `op`
and its operands. -/
theorem decode_eq_error_iff {w : Word} {r : IllegalWord} :
    decode w = .error r ↔
      ((∀ o, bits w 31 28 ≠ opValue o) ∧ r = .noSuchOp) ∨
      ∃ o, bits w 31 28 = opValue o ∧ bits w 27 (operandBits o) ≠ 0 ∧ r = illegalKindOf o := by
  constructor
  · intro h
    rcases one_row_or_none w with ⟨o, ho⟩ | hnone
    · cases (decode_of_selects ho).symm.trans h
    · cases (decode_of_no_row hnone).symm.trans h
      by_cases hop : ∃ o, bits w 31 28 = opValue o
      · obtain ⟨o, ho⟩ := hop
        refine .inr ⟨o, ho, fun hzero => ?_, illegalKind_of_opValue ho⟩
        exact Bool.false_ne_true ((hnone o).symm.trans (selects_iff_bits.2 ⟨ho, hzero⟩))
      · exact .inl ⟨not_exists.1 hop, illegalKind_of_no_opValue (not_exists.1 hop)⟩
  · rintro (⟨hop, rfl⟩ | ⟨o, ho, hset, rfl⟩)
    · rw [← illegalKind_of_no_opValue hop]
      exact decode_of_no_row fun o => Bool.eq_false_iff.2 fun h => hop o (selects_iff_bits.1 h).1
    · rw [← illegalKind_of_opValue ho]
      refine decode_of_no_row fun p => Bool.eq_false_iff.2 fun h => ?_
      obtain ⟨hp, hzero⟩ := selects_iff_bits.1 h
      cases opValue_injective (hp.symm.trans ho)
      exact hset hzero

/-- Settles O4: `decode_eq_error_iff` read for each kind, row by row. -/
theorem illegalWordsByKind : Obligations.IllegalWordsByKind := by
  intro w
  have hsel := bits_lt w 27 27
  simp only [decode_eq_error_iff, forall_op_iff, exists_op_iff, opValue, operandBits, illegalKindOf, reduceCtorEq,
    and_false, and_true, or_false, false_or,
    or_and_right, true_and]
  constructor <;> omega

/-! ### How many legal words a row has -/

theorem row_fits (o : Op) : opValue o * 2 ^ 28 + 2 ^ operandBits o ≤ 2 ^ 32 := by cases o <;> decide

theorem ncard_selects (o : Op) : {w : Word | o.selects w = true}.ncard = 2 ^ operandBits o := by
  have himage : BitVec.toNat '' {w : Word | o.selects w = true} =
      Finset.Ico (opValue o * 2 ^ 28) (opValue o * 2 ^ 28 + 2 ^ operandBits o) := by
    ext n
    simp only [Set.mem_image, Set.mem_ofPred_eq, selects_iff_toNat, Finset.coe_Ico, Set.mem_Ico]
    refine ⟨fun ⟨w, hw, hn⟩ => hn ▸ hw, fun hn => ?_⟩
    have htoNat : (BitVec.ofNat 32 n).toNat = n := Nat.mod_eq_of_lt (hn.2.trans_le (row_fits o))
    exact ⟨BitVec.ofNat 32 n, htoNat.symm ▸ hn, htoNat⟩
  rw [← Set.ncard_image_of_injective _ fun _ _ => BitVec.eq_of_toNat_eq, himage, Set.ncard_coe_finset, Nat.card_Ico,
    Nat.add_sub_cancel_left]

/-- Settles O5: the words that decode to a row's operation are the words the row selects. -/
theorem legalWordCounts : Obligations.LegalWordCounts := by
  unfold Obligations.LegalWordCounts
  simp only [decode_eq_ok_iff, rowOf, Op.operands, Instr.score.injEq, Instr.classify.injEq, Instr.decfield.injEq,
    Instr.decframe.injEq, exists_and_left, exists_eq', and_true, ncard_selects, operandBits, pow_zero, and_self]

/-- Settles O6, by running the decoder. -/
theorem writtenOutWordsDecode : Obligations.WrittenOutWordsDecode := by
  unfold Obligations.WrittenOutWordsDecode
  decide

/-! ### The engine runs the decoded instruction -/

theorem step_of_engine {s : State} {ts : List Turn} (hc : s.cfg.valid = true) (hs : s.schedule = .engine :: ts) :
    step s = engineTurn { s with schedule := ts } := step_of_turn hc hs

theorem decodeTableWord_eq_some_iff {nbits w : Nat} {i : Instr} :
    decodeTableWord nbits w = some i ↔ decode (wordOfTable nbits w) = .ok i := by
  unfold decodeTableWord
  cases decode (wordOfTable nbits w) <;> simp

/-- Settles O7: the engine has the turn, scheduled or not, and runs what the accepted word decodes to. -/
theorem stepRunsDecodedInstruction : Obligations.StepRunsDecodedInstruction := by
  refine ⟨fun s w i hc hrun hdec => ⟨fun hs => ?_, fun ts hs => ?_⟩, fun s nbits w i hc hdec => ?_⟩
  · exact (step_of_no_turn hc hs).trans (engineTurn_legal hrun hdec)
  · exact (step_of_engine hc hs).trans (engineTurn_legal hrun hdec)
  · exact (step_of_engine (s := s.withFetchWord nbits w) hc rfl).trans
      (engineTurn_legal (s := s.accept (wordOfTable nbits w)) rfl (decodeTableWord_eq_some_iff.1 hdec))

end Sys2Proof.Machine
end

section
/-! The assembler (30_encoding.md R99, R100): a line is a mnemonic and its operands, each a token; each operand is read back
as it is printed, and so the line of an instruction assembles to its word. -/

namespace Sys2Proof.Machine

/-! ### Tokens: what the pieces of a printed line are made of -/

/-- A character that neither separates the pieces of a line nor starts a comment. -/
def plainChar (ch : Char) : Bool := !isSpace ch && ch != ',' && ch != ';'

/-- A piece of a line: a mnemonic or an operand. -/
def isToken (l : List Char) : Bool := !l.isEmpty && l.all plainChar

theorem isToken_iff {l : List Char} :
    isToken l = true ↔ l ≠ [] ∧ ∀ ch ∈ l, isSpace ch = false ∧ ch ≠ ',' ∧ ch ≠ ';' := by
  simp [isToken, plainChar, and_assoc]

theorem isToken_reverse (l : List Char) : isToken l.reverse = isToken l := by simp [isToken]

/-! ### Where a line begins and ends with a token -/

theorem dropWhile_isSpace_of_starts {a l : List Char} (ha : isToken a = true) (h : a <+: l) :
    l.dropWhile isSpace = l := by
  obtain ⟨hne, hplain⟩ := isToken_iff.1 ha
  obtain ⟨rest, rfl⟩ := h
  obtain ⟨ch, a, rfl⟩ := List.exists_cons_of_ne_nil hne
  rw [List.cons_append, List.dropWhile_cons_of_neg (by simp [hplain])]

theorem trimmed_of_ends {a b l : List Char} (ha : isToken a = true) (hb : isToken b = true) (hal : a <+: l)
    (hbl : b <:+ l) : trimmed l = l := by
  rw [trimmed, dropWhile_isSpace_of_starts ha hal,
    dropWhile_isSpace_of_starts ((isToken_reverse b).trans hb) (List.reverse_prefix.2 hbl), List.reverse_reverse]

theorem trimmed_token {a : List Char} (ha : isToken a = true) : trimmed a = a :=
  trimmed_of_ends ha ha List.prefix_rfl List.suffix_rfl

theorem trimmed_space_cons (l : List Char) : trimmed (' ' :: l) = trimmed l := by
  rw [trimmed, trimmed, List.dropWhile_cons_of_pos (by decide)]

theorem withoutComment_of_ends {a b l : List Char} (ha : isToken a = true) (hb : isToken b = true) (hal : a <+: l)
    (hbl : b <:+ l) (hc : ';' ∉ l) : withoutComment l = l := by
  have hall : l.takeWhile (· != ';') = l := List.takeWhile_eq_self_iff.2 fun ch hch => by
    simpa using fun heq : ch = ';' => hc (heq ▸ hch)
  rw [withoutComment, hall, trimmed_of_ends ha hb hal hbl]

/-! ### The operands of a line -/

theorem splitCommas_ne_nil (l : List Char) : splitCommas l ≠ [] := by
  cases l with
  | nil => simp [splitCommas]
  | cons ch l =>
    rw [splitCommas]
    split
    · exact List.cons_ne_nil _ _
    · cases ch == ',' <;> exact List.cons_ne_nil _ _

theorem splitCommas_comma (l : List Char) : splitCommas (',' :: l) = [] :: splitCommas l := by
  obtain ⟨p, ps, h⟩ := List.exists_cons_of_ne_nil (splitCommas_ne_nil l)
  simp [splitCommas, h]

theorem splitCommas_cons_of_ne {ch : Char} {l p : List Char} {ps : List (List Char)} (hch : ch ≠ ',')
    (h : splitCommas l = p :: ps) : splitCommas (ch :: l) = (ch :: p) :: ps := by
  simp [splitCommas, h, beq_false_of_ne hch]

/-- Characters before the first comma belong to the first operand. -/
theorem splitCommas_append {a l p : List Char} {ps : List (List Char)} (ha : ',' ∉ a)
    (h : splitCommas l = p :: ps) : splitCommas (a ++ l) = (a ++ p) :: ps := by
  induction a with
  | nil => exact h
  | cons ch a ih =>
    obtain ⟨hch, ha⟩ := not_or.1 (List.mem_cons.not.1 ha)
    exact splitCommas_cons_of_ne (Ne.symm hch) (ih ha)

theorem splitCommas_of_no_comma {a : List Char} (ha : ',' ∉ a) : splitCommas a = [a] := by
  simpa using splitCommas_append (l := []) ha rfl

/-! ### A line of tokens -/

theorem comma_notMem_of_isToken {a : List Char} (ha : isToken a = true) : ',' ∉ a :=
  fun h => ((isToken_iff.1 ha).2 _ h).2.1 rfl

theorem semicolon_notMem_of_isToken {a : List Char} (ha : isToken a = true) : ';' ∉ a :=
  fun h => ((isToken_iff.1 ha).2 _ h).2.2 rfl

/-- A line that needs no trimming and holds no comment is split at its mnemonic. -/
theorem assemble_of_withoutComment {m rest : List Char} (hm : isToken m = true)
    (hrest : rest = [] ∨ ∃ t, rest = ' ' :: t) (hw : withoutComment (m ++ rest) = m ++ rest) :
    assemble (m ++ rest) = wordOrReject (assembleParts m ((splitCommas rest).map trimmed)) := by
  obtain ⟨hne, hplain⟩ := isToken_iff.1 hm
  have hnospace : ∀ ch ∈ m, (!isSpace ch) = true := fun ch hch => by simp [(hplain ch hch).1]
  have htake : (m ++ rest).takeWhile (fun ch => !isSpace ch) = m := by
    rw [List.takeWhile_append_of_pos hnospace]
    rcases hrest with rfl | ⟨t, rfl⟩ <;> simp [isSpace]
  have hdrop : (m ++ rest).dropWhile (fun ch => !isSpace ch) = rest := by
    rw [List.dropWhile_append_of_pos hnospace]
    rcases hrest with rfl | ⟨t, rfl⟩ <;> simp [isSpace]
  unfold assemble
  rw [hw]
  split
  · next h => exact absurd (List.append_eq_nil_iff.1 h).1 hne
  · rw [htake, hdrop]

section
variable {m a b : List Char} (hm : isToken m = true) (ha : isToken a = true) (hb : isToken b = true)
include hm

theorem assemble_mnemonic : assemble m = wordOrReject (assembleParts m [[]]) := by
  have hw := withoutComment_of_ends hm hm List.prefix_rfl List.suffix_rfl (semicolon_notMem_of_isToken hm)
  have hline := assemble_of_withoutComment (rest := []) hm (.inl rfl) (by rwa [List.append_nil])
  rwa [List.append_nil] at hline

include ha

theorem assemble_one_operand : assemble (m ++ ' ' :: a) = wordOrReject (assembleParts m [a]) := by
  have hw : withoutComment (m ++ ' ' :: a) = m ++ ' ' :: a :=
    withoutComment_of_ends hm ha (List.prefix_append _ _) ⟨m ++ [' '], by simp⟩
      (by simp [semicolon_notMem_of_isToken hm, semicolon_notMem_of_isToken ha])
  have hops : splitCommas (' ' :: a) = [' ' :: a] :=
    splitCommas_cons_of_ne (by decide) (splitCommas_of_no_comma (comma_notMem_of_isToken ha))
  rw [assemble_of_withoutComment hm (.inr ⟨a, rfl⟩) hw, hops, List.map_singleton, trimmed_space_cons, trimmed_token ha]

include hb

theorem assemble_two_operands :
    assemble (m ++ ' ' :: (a ++ ',' :: ' ' :: b)) = wordOrReject (assembleParts m [a, b]) := by
  have hw : withoutComment (m ++ ' ' :: (a ++ ',' :: ' ' :: b)) = m ++ ' ' :: (a ++ ',' :: ' ' :: b) :=
    withoutComment_of_ends hm hb (List.prefix_append _ _) ⟨m ++ ' ' :: (a ++ [',', ' ']), by simp⟩
      (by simp [semicolon_notMem_of_isToken hm, semicolon_notMem_of_isToken ha, semicolon_notMem_of_isToken hb])
  have hsecond : splitCommas (',' :: ' ' :: b) = [[], ' ' :: b] := by
    rw [splitCommas_comma,
      splitCommas_cons_of_ne (by decide) (splitCommas_of_no_comma (comma_notMem_of_isToken hb))]
  have hops : splitCommas (' ' :: (a ++ ',' :: ' ' :: b)) = [' ' :: a, ' ' :: b] := by
    refine splitCommas_cons_of_ne (by decide) ?_
    simpa using splitCommas_append (comma_notMem_of_isToken ha) hsecond
  rw [assemble_of_withoutComment hm (.inr ⟨_, rfl⟩) hw, hops]
  simp only [List.map_cons, List.map_nil, trimmed_space_cons, trimmed_token ha, trimmed_token hb]

end

/-! ### Numbers -/

theorem digitsValue?_append (base : Nat) (l l' : List Char) (acc : Nat) :
    digitsValue? base (l ++ l') acc = (digitsValue? base l acc).bind (digitsValue? base l') := by
  induction l generalizing acc with
  | nil => rfl
  | cons ch l ih =>
    simp only [List.cons_append, digitsValue?]
    split
    · rfl
    · split
      · exact ih _
      · rfl

theorem digitValue?_hexDigit : ∀ d < 16, digitValue? (hexDigit d) = some d := by decide

theorem plainChar_hexDigit : ∀ d < 16, plainChar (hexDigit d) = true := by decide

theorem digitsValue?_hexDigits (k v acc : Nat) :
    digitsValue? 16 (hexDigits k v) acc = some (acc * 16 ^ k + v % 16 ^ k) := by
  induction k generalizing v with
  | zero => simp [hexDigits, digitsValue?, Nat.mod_one]
  | succ k ih =>
    have hlt : v % 16 < 16 := Nat.mod_lt _ (by decide)
    have hlast : v % 16 ^ (k + 1) = v % 16 + 16 * (v / 16 % 16 ^ k) := by rw [Nat.pow_succ', Nat.mod_mul]
    rw [hexDigits, digitsValue?_append, ih, Option.bind_some]
    simp only [digitsValue?, digitValue?_hexDigit _ hlt, if_pos hlt, Option.some.injEq]
    rw [hlast]
    ring

theorem hexDigits_plain (k v : Nat) : (hexDigits k v).all plainChar = true := by
  induction k generalizing v with
  | zero => rfl
  | succ k ih => simp [hexDigits, List.all_append, ih, plainChar_hexDigit _ (Nat.mod_lt v (by decide))]

theorem numberOf?_hex {l : List Char} (h : l ≠ []) : numberOf? ('0' :: 'x' :: l) = digitsValue? 16 l 0 := by
  obtain ⟨d, ds, rfl⟩ := List.exists_cons_of_ne_nil h
  rfl

/-! ### Each operand is read back as it is printed -/

theorem renderStart_eq (start : Nat) : renderStart start = '0' :: 'x' :: hexDigits 6 start := rfl

theorem renderStart_ne_nil (start : Nat) : renderStart start ≠ [] := List.cons_ne_nil _ _

theorem isToken_renderStart (start : Nat) : isToken (renderStart start) = true := by
  have h := hexDigits_plain 6 start
  have hx : plainChar '0' = true ∧ plainChar 'x' = true := by decide
  simp only [isToken, renderStart_eq, List.isEmpty_cons, List.all_cons, hx, h]
  decide

theorem startOf?_renderStart {start : Nat} (h : start < 2 ^ 24) : startOf? (renderStart start) = some start := by
  have hnum : numberOf? (renderStart start) = some start := by
    rw [renderStart_eq, numberOf?_hex (by simp [hexDigits]), digitsValue?_hexDigits]
    simp only [Option.some.injEq]
    omega
  have hfits : startFits start = true := decide_eq_true h
  rw [startOf?, hnum, Option.filter_some, if_pos hfits]

theorem renderSym_readBack : ∀ sym < 4, isToken (renderSym sym) = true ∧ symOf? (renderSym sym) = some sym := by decide

theorem renderField_readBack :
    ∀ f < 8, isToken (renderField f) = true ∧ fieldNameOf? (renderField f) = some f := by decide

/-! ### The line of an instruction -/

theorem assembleParts_score (a b : List Char) :
    assembleParts "SCORE".toList [a, b] =
      (startOf? a).bind fun st => (symOf? b).map fun sym => encode (.score sym st) := by
  rw [assembleParts, if_pos rfl]

theorem assembleParts_decfield (a b : List Char) :
    assembleParts "DECFIELD".toList [a, b] =
      (startOf? a).bind fun st => (fieldNameOf? b).map fun f => encode (.decfield f st) := by
  rw [assembleParts, if_neg (by decide), if_pos rfl]

theorem assembleParts_classify {a : List Char} (ha : a ≠ []) :
    assembleParts "CLASSIFY".toList [a] = (startOf? a).map fun st => encode (.classify st) := by
  rw [assembleParts, if_pos rfl]
  exact ha

theorem assembleParts_decframe {a : List Char} (ha : a ≠ []) :
    assembleParts "DECFRAME".toList [a] = (startOf? a).map fun st => encode (.decframe st) := by
  rw [assembleParts, if_neg (by decide), if_pos rfl]
  exact ha

theorem render_score (sym start : Nat) :
    render (.score sym start) = "SCORE".toList ++ ' ' :: (renderStart start ++ ',' :: ' ' :: renderSym sym) := by
  have hname : "SCORE ".toList = "SCORE".toList ++ [' '] := by decide
  have hcomma : ", ".toList = [',', ' '] := by decide
  unfold render
  simp only [hname, hcomma, List.append_assoc, List.cons_append, List.nil_append]

theorem render_classify (start : Nat) :
    render (.classify start) = "CLASSIFY".toList ++ ' ' :: renderStart start := by
  have hname : "CLASSIFY ".toList = "CLASSIFY".toList ++ [' '] := by decide
  unfold render
  simp only [hname, List.append_assoc, List.cons_append, List.nil_append]

theorem render_decfield (f start : Nat) :
    render (.decfield f start) = "DECFIELD".toList ++ ' ' :: (renderStart start ++ ',' :: ' ' :: renderField f) := by
  have hname : "DECFIELD ".toList = "DECFIELD".toList ++ [' '] := by decide
  have hcomma : ", ".toList = [',', ' '] := by decide
  unfold render
  simp only [hname, hcomma, List.append_assoc, List.cons_append, List.nil_append]

theorem render_decframe (start : Nat) :
    render (.decframe start) = "DECFRAME".toList ++ ' ' :: renderStart start := by
  have hname : "DECFRAME ".toList = "DECFRAME".toList ++ [' '] := by decide
  unfold render
  simp only [hname, List.append_assoc, List.cons_append, List.nil_append]

theorem assemble_render {i : Instr} (h : i.wf = true) : assemble (render i) = .word (encode i) := by
  cases i with
  | score sym start =>
    obtain ⟨hsym, hstart⟩ := score_wf_iff.1 h
    obtain ⟨htok, hread⟩ := renderSym_readBack sym hsym
    rw [render_score, assemble_two_operands (by decide) (isToken_renderStart start) htok, assembleParts_score,
      startOf?_renderStart hstart, hread]
    rfl
  | classify start =>
    rw [render_classify, assemble_one_operand (by decide) (isToken_renderStart start),
      assembleParts_classify (renderStart_ne_nil start), startOf?_renderStart (classify_wf_iff.1 h)]
    rfl
  | findframe => exact assemble_mnemonic (by decide)
  | decfield f start =>
    obtain ⟨hf, hstart⟩ := decfield_wf_iff.1 h
    obtain ⟨htok, hread⟩ := renderField_readBack f hf
    rw [render_decfield, assemble_two_operands (by decide) (isToken_renderStart start) htok, assembleParts_decfield,
      startOf?_renderStart hstart, hread]
    rfl
  | decframe start =>
    rw [render_decframe, assemble_one_operand (by decide) (isToken_renderStart start),
      assembleParts_decframe (renderStart_ne_nil start), startOf?_renderStart (decframe_wf_iff.1 h)]
    rfl
  | decode => exact assemble_mnemonic (by decide)

/-- Settles O2: the line of the decoded instruction assembles to the instruction's word, which is the word it was decoded
from; so two words that decode alike are the word of one instruction. -/
theorem assembledLineIsTheWord : Obligations.AssembledLineIsTheWord :=
  ⟨fun _ _ h => (assemble_render (wf_of_decode h)).trans (congrArg _ (encode_of_decode h)),
    fun _ _ _ hw hv => (encode_of_decode hw).symm.trans (encode_of_decode hv)⟩

end Sys2Proof.Machine
end

section
/-! The Symbol Matcher (40_symbol_matcher.md R121 – R128): a score as a count of disagreements, of ones and zeros by phase
and of ones by part of the second; the score of a span with one edge; which symbol `classify` returns; and SCORE and
CLASSIFY, which commit what these two functions return. -/

namespace Sys2Proof.Machine

theorem forall_symbol_iff {P : Symbol → Prop} : (∀ y, P y) ↔ P .zero ∧ P .one ∧ P .marker :=
  ⟨fun h => ⟨h _, h _, h _⟩, fun ⟨hz, ho, hm⟩ y => by cases y <;> assumption⟩

/-! ### Templates -/

theorem lowLen_le_sps (c : Cfg) (y : Symbol) : c.lowLen y ≤ c.sps := by
  cases y <;> simp only [Cfg.lowLen, Symbol.lowNum] <;> omega

theorem tmpl_of_low {c : Cfg} {y : Symbol} {i : Nat} (h : i < c.lowLen y) : tmpl c y i = false :=
  decide_eq_false (Nat.not_le.2 h)

theorem tmpl_of_high {c : Cfg} {y : Symbol} {i : Nat} (h : c.lowLen y ≤ i) : tmpl c y i = true := decide_eq_true h

/-- The low phase and then the high phase, as a list. -/
theorem map_tmpl_range (c : Cfg) (y : Symbol) :
    (List.range c.sps).map (tmpl c y) =
      List.replicate (c.lowLen y) false ++ List.replicate (c.sps - c.lowLen y) true := by
  have hl := lowLen_le_sps c y
  refine List.ext_getElem (by simp; omega) fun i hi _ => ?_
  simp only [List.getElem_map, List.getElem_range, List.getElem_append, List.getElem_replicate, List.length_replicate]
  split
  · next h => exact tmpl_of_low h
  · next h => exact tmpl_of_high (Nat.le_of_not_lt h)

/-- Settles O17: the two phases are the two cases of the template's comparison, and at SPS = 40 their lengths follow
from R7. -/
theorem templatesAreLowThenHigh : Obligations.TemplatesAreLowThenHigh := by
  refine ⟨fun c y i => ⟨tmpl_of_low, tmpl_of_high⟩, rfl, fun c hsps => ?_⟩
  have hlow : ∀ y, c.lowLen y = 40 * y.lowNum / 10 := fun y => by rw [Cfg.lowLen, hsps]
  have hmap := map_tmpl_range c
  simp only [hsps, hlow] at hmap
  exact ⟨by simp only [hlow, Symbol.lowNum], hmap .zero, hmap .one, hmap .marker⟩

/-! ### Ones and zeros -/

theorem onesIn_eq_sum (s : State) (lo len : Nat) :
    onesIn s lo len = ∑ i ∈ Finset.range len, (s.sample (lo + i)).toNat := by
  induction len with
  | zero => rfl
  | succ n ih =>
    rw [Finset.sum_range_succ, ← ih, onesIn, List.range_succ, List.countP_append, List.countP_singleton]
    cases s.sample (lo + n) <;> rfl

theorem onesIn_split (s : State) {lo mid len m n : Nat} (hmid : mid = lo + m) (hlen : len = m + n) :
    onesIn s lo len = onesIn s lo m + onesIn s mid n := by
  subst hmid hlen
  simp only [onesIn_eq_sum, Finset.sum_range_add, Nat.add_assoc]

theorem onesIn_add_zerosIn (s : State) (lo len : Nat) : onesIn s lo len + zerosIn s lo len = len := by
  have h := List.length_eq_countP_add_countP (fun i => s.sample (lo + i)) (l := List.range len)
  simpa [onesIn, zerosIn] using h.symm

theorem onesIn_le (s : State) (lo len : Nat) : onesIn s lo len ≤ len := by
  have := onesIn_add_zerosIn s lo len
  omega

/-! ### A score as a count -/

section
variable (c : Cfg) (s : State) (st : Nat) (y : Symbol)

theorem score_eq_card :
    score c s.samples st y = ((Finset.range c.sps).filter fun i => s.sample (st + i) ≠ tmpl c y i).card := by
  rw [score_samples, Finset.card_filter]
  refine Finset.sum_congr rfl fun i _ => ?_
  cases s.sample (st + i) <;> cases tmpl c y i <;> rfl

/-- The disagreements are the ones of the low phase and the zeros of the high one (R122). -/
theorem score_eq_onesIn_add_zerosIn :
    score c s.samples st y =
      onesIn s st (c.lowLen y) + zerosIn s (st + c.lowLen y) (c.sps - c.lowLen y) := by
  have hsplit : c.sps = c.lowLen y + (c.sps - c.lowLen y) := (Nat.add_sub_of_le (lowLen_le_sps c y)).symm
  have hlow : ∀ i ∈ Finset.range (c.lowLen y),
      (s.sample (st + i) ^^ tmpl c y i).toNat = (s.sample (st + i)).toNat := fun i hi => by
    rw [tmpl_of_low (Finset.mem_range.1 hi), Bool.xor_false]
  have hhigh : ∀ i ∈ Finset.range (c.sps - c.lowLen y),
      (s.sample (st + (c.lowLen y + i)) ^^ tmpl c y (c.lowLen y + i)).toNat +
        (s.sample (st + c.lowLen y + i)).toNat = 1 := fun i _ => by
    rw [tmpl_of_high (Nat.le_add_right _ i), ← Nat.add_assoc]
    cases s.sample (st + c.lowLen y + i) <;> rfl
  have hsum := Finset.sum_congr rfl hhigh
  rw [Finset.sum_add_distrib, ← onesIn_eq_sum, Finset.sum_const, Finset.card_range, smul_eq_mul, Nat.mul_one] at hsum
  have hcount := onesIn_add_zerosIn s (st + c.lowLen y) (c.sps - c.lowLen y)
  rw [score_samples, hsplit, Finset.sum_range_add, Finset.sum_congr rfl hlow, ← onesIn_eq_sum, ← hsplit]
  omega

/-- The same count with ones alone: those of the low phase twice, less those of the whole span. -/
theorem score_add_onesIn :
    score c s.samples st y + onesIn s st c.sps = 2 * onesIn s st (c.lowLen y) + (c.sps - c.lowLen y) := by
  have hspan : onesIn s st c.sps = _ := onesIn_split s rfl (Nat.add_sub_of_le (lowLen_le_sps c y)).symm
  have hcount := onesIn_add_zerosIn s (st + c.lowLen y) (c.sps - c.lowLen y)
  rw [score_eq_onesIn_add_zerosIn, hspan]
  omega

theorem score_eq_zero_iff :
    score c s.samples st y = 0 ↔ ∀ i, i < c.sps → s.sample (st + i) = tmpl c y i := by
  simp [score_eq_card, Finset.filter_eq_empty_iff]

theorem score_eq_sps_iff :
    score c s.samples st y = c.sps ↔ ∀ i, i < c.sps → s.sample (st + i) ≠ tmpl c y i := by
  have h := Finset.card_filter_eq_iff (s := Finset.range c.sps) (p := fun i => s.sample (st + i) ≠ tmpl c y i)
  rw [Finset.card_range, ← score_eq_card] at h
  simpa only [Finset.mem_range] using h

/-- A write to one cell of the span replaces that cell's term of the score. -/
theorem score_write {k : Nat} (hk : k < c.sps) (b : Sample) :
    score c (State.samples { s with smp := s.smp.write (st + k) b }) st y + (s.sample (st + k) ^^ tmpl c y k).toNat =
      score c s.samples st y + (b ^^ tmpl c y k).toNat := by
  have hmem := Finset.mem_range.2 hk
  have hrest : ∀ i ∈ (Finset.range c.sps).erase k,
      ((if st + i = st + k then b else s.sample (st + i)) ^^ tmpl c y i).toNat =
        (s.sample (st + i) ^^ tmpl c y i).toNat := fun i hi => by
    rw [if_neg fun h => Finset.ne_of_mem_erase hi (Nat.add_left_cancel h)]
  simp only [score_samples, sample_write]
  rw [← Finset.sum_erase_add _ _ hmem, ← Finset.sum_erase_add (Finset.range c.sps) _ hmem, Finset.sum_congr rfl hrest,
    if_pos rfl]
  omega

end

/-- Settles O18: the two forms of R122 hold of any span. -/
theorem scoreCountsDisagreements : Obligations.ScoreCountsDisagreements :=
  fun s st y _ _ => ⟨score_eq_card s.cfg s st y, score_eq_onesIn_add_zerosIn s.cfg s st y⟩

/-! ### The score by the parts of the second -/

/-- R124(c): the low phases end at SPS/5, SPS/2 and 4 × SPS/5, so each score is a sum over the four parts between. -/
theorem score_by_parts {c : Cfg} (hc : c.valid = true) (s : State) (st : Nat) :
    let e := c.sps / 5
    let q := 3 * c.sps / 10
    let a := onesIn s st e
    let b := onesIn s (st + c.sps / 5) q
    let b' := onesIn s (st + c.sps / 2) q
    let d := onesIn s (st + 4 * c.sps / 5) e
    score c s.samples st .zero = a + (q - b) + (q - b') + (e - d) ∧
      score c s.samples st .one = a + b + (q - b') + (e - d) ∧
      score c s.samples st .marker = a + b + b' + (e - d) := by
  obtain ⟨p, hsps, hz, ho, hm⟩ := Cfg.valid_lowLen hc
  have h5 : c.sps / 5 = 2 * p := by omega
  have h2 : c.sps / 2 = 5 * p := by omega
  have h45 : 4 * c.sps / 5 = 8 * p := by omega
  have h310 : 3 * c.sps / 10 = 3 * p := by omega
  obtain ⟨hzero, hone, hmarker⟩ := forall_symbol_iff.1 (score_add_onesIn c s st)
  simp only [hsps, hz, ho, hm] at hzero hone hmarker
  simp only [h5, h2, h45, h310]
  have hab : onesIn s st (5 * p) = onesIn s st (2 * p) + onesIn s (st + 2 * p) (3 * p) :=
    onesIn_split s rfl (by omega)
  have habb' : onesIn s st (8 * p) = onesIn s st (5 * p) + onesIn s (st + 5 * p) (3 * p) :=
    onesIn_split s rfl (by omega)
  have hspan : onesIn s st (10 * p) = onesIn s st (8 * p) + onesIn s (st + 8 * p) (2 * p) :=
    onesIn_split s rfl (by omega)
  have hb := onesIn_le s (st + 2 * p) (3 * p)
  have hb' := onesIn_le s (st + 5 * p) (3 * p)
  have hd := onesIn_le s (st + 8 * p) (2 * p)
  omega

/-! ### The score of a span with one edge -/

/-- Two sequences that rise at `k` and at `l` differ between the two edges. -/
theorem sum_rising_xor_rising {k l n : Nat} (hk : k ≤ n) (hl : l ≤ n) :
    ∑ i ∈ Finset.range n, (decide (k ≤ i) ^^ decide (l ≤ i)).toNat = (k - l) + (l - k) := by
  rw [← sum_indicator_Ico hk, ← sum_indicator_Ico hl, ← Finset.sum_add_distrib]
  refine Finset.sum_congr rfl fun i _ => ?_
  by_cases hki : k ≤ i <;> by_cases hli : l ≤ i <;> simp [← Nat.not_le, hki, hli]

section
variable {c : Cfg} {s : State} {st k : Nat} (hk : k ≤ c.sps) (y : Symbol)
include hk

theorem score_of_rising (h : ∀ i, i < c.sps → s.sample (st + i) = decide (k ≤ i)) :
    score c s.samples st y = (k - c.lowLen y) + (c.lowLen y - k) := by
  rw [score_samples, ← sum_rising_xor_rising hk (lowLen_le_sps c y)]
  exact Finset.sum_congr rfl fun i hi => by rw [h i (Finset.mem_range.1 hi), tmpl]

/-- A falling span is the complement of the one that rises at the same place. -/
theorem score_of_falling (h : ∀ i, i < c.sps → s.sample (st + i) = !decide (k ≤ i)) :
    score c s.samples st y + ((k - c.lowLen y) + (c.lowLen y - k)) = c.sps := by
  rw [score_samples, ← sum_rising_xor_rising hk (lowLen_le_sps c y), ← Finset.sum_add_distrib]
  calc _ = ∑ _i ∈ Finset.range c.sps, 1 := Finset.sum_congr rfl fun i hi => by
        rw [h i (Finset.mem_range.1 hi), tmpl]
        cases decide (k ≤ i) <;> cases decide (c.lowLen y ≤ i) <;> rfl
    _ = c.sps := by simp

end

/-- Settles O19: the score counts disagreements (a), one by one (b), part by part (c), and a template is a span that rises
at its LOWLEN (d). -/
theorem scoreLawsOfR124 : Obligations.ScoreLawsOfR124 := by
  intro s st y hc
  refine ⟨⟨score_le _ _ _ _, score_eq_zero_iff _ _ _ _, score_eq_sps_iff _ _ _ _⟩, fun k hk => ?_,
    ⟨onesIn_le _ _ _, onesIn_le _ _ _, onesIn_le _ _ _, onesIn_le _ _ _, score_by_parts hc s st⟩,
    fun x hx => score_of_rising (lowLen_le_sps _ x) y hx, fun hsps => ?_⟩
  · have hwrite := score_write s.cfg s st y hk (!s.sample (st + k))
    simp only [sample_write, if_pos]
    refine ⟨fun hwrong => ?_, fun hright => ?_⟩
    · have hold : s.sample (st + k) = tmpl s.cfg y k := by simpa using hwrong
      simpa [hold] using hwrite
    · simpa [← hright] using hwrite
  · simp [Cfg.lowLen, hsps, Symbol.lowNum]

/-! ### Which symbol `classify` returns -/

section
variable (c : Cfg) (S : Samples) (st : Nat)

/-- R125 and R127: a symbol is returned when it beats those before it in the order ONE, ZERO, MARKER and is not beaten by
those after it. -/
theorem classify_cases :
    ((classify c S st).1 = .one ∧ score c S st .one ≤ score c S st .zero ∧ score c S st .one ≤ score c S st .marker) ∨
    ((classify c S st).1 = .zero ∧ score c S st .zero < score c S st .one ∧
      score c S st .zero ≤ score c S st .marker) ∨
    ((classify c S st).1 = .marker ∧ score c S st .marker < score c S st .one ∧
      score c S st .marker < score c S st .zero) := by
  unfold classify better
  by_cases hz : score c S st .zero < score c S st .one
  · rw [if_pos hz]
    by_cases hm : score c S st .marker < score c S st .zero
    · exact .inr (.inr ⟨by rw [if_pos hm], hm.trans hz, hm⟩)
    · exact .inr (.inl ⟨by rw [if_neg hm], hz, Nat.le_of_not_lt hm⟩)
  · rw [if_neg hz]
    by_cases hm : score c S st .marker < score c S st .one
    · exact .inr (.inr ⟨by rw [if_pos hm], hm, hm.trans_le (Nat.le_of_not_lt hz)⟩)
    · exact .inl ⟨by rw [if_neg hm], Nat.le_of_not_lt hz, Nat.le_of_not_lt hm⟩

theorem classify_fst_iff :
    ((classify c S st).1 = .one ↔
      score c S st .one ≤ score c S st .zero ∧ score c S st .one ≤ score c S st .marker) ∧
    ((classify c S st).1 = .zero ↔
      score c S st .zero < score c S st .one ∧ score c S st .zero ≤ score c S st .marker) ∧
    ((classify c S st).1 = .marker ↔
      score c S st .marker < score c S st .one ∧ score c S st .marker < score c S st .zero) := by
  rcases classify_cases c S st with ⟨h, hlo, hhi⟩ | ⟨h, hlo, hhi⟩ | ⟨h, hlo, hhi⟩ <;>
    simp only [h, reduceCtorEq, true_iff, false_iff] <;> omega

variable {c S st}

theorem classify_eq_of_fst {y : Symbol} {t : Nat} (hfst : (classify c S st).1 = y) (hscore : score c S st y = t) :
    classify c S st = (y, t) :=
  Prod.ext hfst (by rw [classify_score, hfst, hscore])

end

/-- Settles O21: the score is the least of the three, and the rows of R127 are cases of the three conditions. -/
theorem classifyIsLeastWithFixedTieBreak : Obligations.ClassifyIsLeastWithFixedTieBreak := by
  intro c S st
  obtain ⟨hone, hzero, hmarker⟩ := classify_fst_iff c S st
  exact ⟨(classify_snd c S st).trans (min_assoc _ _ _), classify_score c S st, hone, hzero, hmarker,
    fun hoz hzm => hone.2 ⟨hoz.le, (hoz.trans_lt hzm).le⟩, fun hom hmz => hone.2 ⟨(hom.trans_lt hmz).le, hom.le⟩,
    fun hzm hmo => hzero.2 ⟨hzm.trans_lt hmo, hzm.le⟩, fun hoz hzm => hone.2 ⟨hoz.le, (hoz.trans hzm).le⟩⟩

/-! ### The laws of `classify` -/

section
variable {s : State} {st : Nat} (hc : s.cfg.valid = true)
include hc

/-- R128(a): where the bound is reached. -/
theorem classify_reaches_bound (ha : onesIn s st (s.cfg.sps / 5) = s.cfg.sps / 5)
    (hd : onesIn s (st + 4 * s.cfg.sps / 5) (s.cfg.sps / 5) = 0)
    (hbc : onesIn s (st + s.cfg.sps / 5) (3 * s.cfg.sps / 10) + onesIn s (st + s.cfg.sps / 2) (3 * s.cfg.sps / 10) =
      3 * s.cfg.sps / 10)
    (hcb : onesIn s (st + s.cfg.sps / 2) (3 * s.cfg.sps / 10) ≤ onesIn s (st + s.cfg.sps / 5) (3 * s.cfg.sps / 10)) :
    (classify s.cfg s.samples st).2 = 7 * s.cfg.sps / 10 := by
  have hsps := (Cfg.valid_sps hc).1
  obtain ⟨hzero, hone, hmarker⟩ := score_by_parts hc s st
  rw [classify_snd]
  omega

theorem classify_complement_of_one (h : ∀ i, i < s.cfg.sps → s.sample (st + i) = !tmpl s.cfg .one i) :
    score s.cfg s.samples st .zero = 7 * s.cfg.sps / 10 ∧ score s.cfg s.samples st .marker = 7 * s.cfg.sps / 10 ∧
      score s.cfg s.samples st .one = s.cfg.sps ∧ classify s.cfg s.samples st = (.zero, 7 * s.cfg.sps / 10) := by
  obtain ⟨p, hsps, hz, ho, hm⟩ := Cfg.valid_lowLen hc
  have hsps_pos := (Cfg.valid_sps hc).2.1
  obtain ⟨hzero, hone, hmarker⟩ := forall_symbol_iff.1 fun y => score_of_falling (lowLen_le_sps s.cfg .one) y h
  obtain ⟨-, hfst, -⟩ := classify_fst_iff s.cfg s.samples st
  exact ⟨by omega, by omega, by omega, classify_eq_of_fst (hfst.2 (by omega)) (by omega)⟩

/-- R128(b): the other two templates rise elsewhere. -/
theorem classify_template {y : Symbol} (h : spanIs s st y) : classify s.cfg s.samples st = (y, 0) := by
  obtain ⟨p, hsps, hz, ho, hm⟩ := Cfg.valid_lowLen hc
  have hsps_pos := (Cfg.valid_sps hc).2.1
  obtain ⟨hzero, hone, hmarker⟩ := forall_symbol_iff.1 fun x => score_of_rising (lowLen_le_sps s.cfg y) x h
  obtain ⟨hfst_one, hfst_zero, hfst_marker⟩ := classify_fst_iff s.cfg s.samples st
  cases y with
  | zero => exact classify_eq_of_fst (hfst_zero.2 (by omega)) (by omega)
  | one => exact classify_eq_of_fst (hfst_one.2 (by omega)) (by omega)
  | marker => exact classify_eq_of_fst (hfst_marker.2 (by omega)) (by omega)

/-- R128(c): a span of zeros rises at its end. -/
theorem classify_all_zero (h : ∀ i, i < s.cfg.sps → s.sample (st + i) = false) :
    score s.cfg s.samples st .zero = 4 * s.cfg.sps / 5 ∧ score s.cfg s.samples st .one = s.cfg.sps / 2 ∧
      score s.cfg s.samples st .marker = s.cfg.sps / 5 ∧ classify s.cfg s.samples st = (.marker, s.cfg.sps / 5) := by
  obtain ⟨p, hsps, hz, ho, hm⟩ := Cfg.valid_lowLen hc
  have hsps_pos := (Cfg.valid_sps hc).2.1
  obtain ⟨hzero, hone, hmarker⟩ := forall_symbol_iff.1 fun y =>
    score_of_rising le_rfl y fun i hi => (h i hi).trans (decide_eq_false (Nat.not_le.2 hi)).symm
  obtain ⟨-, -, hfst⟩ := classify_fst_iff s.cfg s.samples st
  exact ⟨by omega, by omega, by omega, classify_eq_of_fst (hfst.2 (by omega)) (by omega)⟩

/-- R128(c): a span of ones rises at its start. -/
theorem classify_all_one (h : ∀ i, i < s.cfg.sps → s.sample (st + i) = true) :
    score s.cfg s.samples st .zero = s.cfg.sps / 5 ∧ score s.cfg s.samples st .one = s.cfg.sps / 2 ∧
      score s.cfg s.samples st .marker = 4 * s.cfg.sps / 5 ∧ classify s.cfg s.samples st = (.zero, s.cfg.sps / 5) := by
  obtain ⟨p, hsps, hz, ho, hm⟩ := Cfg.valid_lowLen hc
  have hsps_pos := (Cfg.valid_sps hc).2.1
  obtain ⟨hzero, hone, hmarker⟩ := forall_symbol_iff.1 fun y =>
    score_of_rising (Nat.zero_le _) y fun i hi => (h i hi).trans (decide_eq_true i.zero_le).symm
  obtain ⟨-, hfst, -⟩ := classify_fst_iff s.cfg s.samples st
  exact ⟨by omega, by omega, by omega, classify_eq_of_fst (hfst.2 (by omega)) (by omega)⟩

end

/-- Settles O22: the bound and where it is reached, the templates, and the two constant spans. -/
theorem classifyLawsOfR128 : Obligations.ClassifyLawsOfR128 := fun _ _ hc =>
  ⟨classify_le hc _ _, classify_reaches_bound hc, classify_complement_of_one hc, fun _ => classify_template hc,
    classify_all_zero hc, classify_all_one hc⟩

/-! ### The operations -/

theorem exec_score_of_fits {s : State} (y : Symbol) {start : Nat} (h : start + s.cfg.sps ≤ s.cfg.n) :
    exec (.score (symCode y) start) s =
      .next (s.setSymScore (symCode y) (score s.cfg s.samples start y)).complete := by
  rw [exec_score, symbolOf?_symCode]
  exact if_pos h

theorem exec_classify_of_fits {s : State} {start : Nat} (h : start + s.cfg.sps ≤ s.cfg.n) :
    exec (.classify start) s =
      .next (s.setSymScore (symCode (classify s.cfg s.samples start).1) (classify s.cfg s.samples start).2).complete := by
  rw [exec_classify, if_pos h]

/-- R25, R26: both values fit their registers. -/
theorem setSymScore_complete_toNat (s : State) (y : Symbol) {sc : Nat} (h : sc ≤ 3640) :
    (s.setSymScore (symCode y) sc).complete.rSym.toNat = symCode y ∧
      (s.setSymScore (symCode y) sc).complete.rScore.toNat = sc :=
  ⟨toNat_ofNat_of_le (symCode_lt y).le (by decide), toNat_ofNat_of_le h (by decide)⟩

theorem wce1_numbers {s : State} (h : s.cfg = Cfg.wce1) :
    s.cfg.valid = true ∧ s.cfg.sps = 40 ∧ s.cfg.n = 4800 ∧
      s.cfg.lowLen .zero = 8 ∧ s.cfg.lowLen .one = 20 ∧ s.cfg.lowLen .marker = 32 := by
  rw [h]
  decide

/-- Settles O20: the three ends of SCORE; the example is the score that R128(c) gives a span of zeros. -/
theorem scoreOperation : Obligations.ScoreOperation := by
  refine ⟨fun s y start hc h => ?_, fun s start => exec_score 3 start s, fun s y start h => ?_,
    decode_encode (i := .score 0 0) rfl, fun s hcfg h => ?_⟩
  · obtain ⟨hsym, hscore⟩ := setSymScore_complete_toNat s y
      ((score_le s.cfg s.samples start y).trans (Cfg.valid_sps hc).2.2)
    exact ⟨_, exec_score_of_fits y h, hsym, hscore, rfl⟩
  · rw [exec_score, symbolOf?_symCode]
    exact if_neg (Nat.not_le.2 h)
  · obtain ⟨hc, hsps, hn, -⟩ := wce1_numbers hcfg
    obtain ⟨hzero, -⟩ := classify_all_zero hc (st := 0) fun i hi => by rw [Nat.zero_add, h i (hsps ▸ hi)]
    obtain ⟨hsym, hscore⟩ := setSymScore_complete_toNat s .zero (sc := score s.cfg s.samples 0 .zero) (by omega)
    exact ⟨_, exec_score_of_fits .zero (by omega), hsym, hscore.trans (by omega)⟩

/-- Settles O23: the two ends of CLASSIFY; the span of the example rises at 14, as far from the 8 of ZERO as from the 20 of
ONE. -/
theorem classifyOperation : Obligations.ClassifyOperation := by
  refine ⟨fun s start hc h => ?_, fun s start h => ?_, decode_encode (i := .classify 0) rfl, fun s hcfg h => ?_⟩
  · have hle := classify_le hc s.samples start
    have hsps := (Cfg.valid_sps hc).2.2
    obtain ⟨hsym, hscore⟩ := setSymScore_complete_toNat s (classify s.cfg s.samples start).1
      (sc := (classify s.cfg s.samples start).2) (by omega)
    exact ⟨_, exec_classify_of_fits h, hsym, hscore, hsym.trans_ne (symCode_lt _).ne, hscore.trans_le hle, rfl⟩
  · rw [exec_classify]
    exact if_neg (Nat.not_le.2 h)
  · obtain ⟨-, hsps, hn, hz, ho, hm⟩ := wce1_numbers hcfg
    obtain ⟨hzero, hone, hmarker⟩ := forall_symbol_iff.1 fun y =>
      score_of_rising (c := s.cfg) (s := s) (st := 0) (k := 14) (by omega) y fun i hi => by
        rw [Nat.zero_add, h i (hsps ▸ hi)]
    obtain ⟨hfst, -⟩ := classify_fst_iff s.cfg s.samples 0
    have hbest : classify s.cfg s.samples 0 = (.one, 6) := classify_eq_of_fst (hfst.2 (by omega)) (by omega)
    have hexec := exec_classify_of_fits (s := s) (start := 0) (by omega)
    rw [hbest] at hexec
    exact ⟨by omega, by omega, by omega, _, hexec, setSymScore_complete_toNat s .one (by decide)⟩

end Sys2Proof.Machine
end

section
/-! The Frame Synchronizer (41_frame_synchronizer.md R141 – R151): the total of a candidate as a sum; the best of a list of
candidates, which is one pair and is found by merging the best of its parts; that the search, the procedure of R145 with
any pruning R146 allows, and a merge in any order each return that pair; and FINDFRAME, which commits it. -/

namespace Sys2Proof.Machine

/-! ### The total of a candidate -/

theorem sum_map_eq_sum_range_length {α : Type} (l : List α) (g : α → Nat) :
    (l.map g).sum = ∑ k ∈ Finset.range l.length, l[k]?.elim 0 g := by
  induction l with
  | nil => rfl
  | cons a l ih =>
    rw [List.map_cons, List.sum_cons, ih, List.length_cons, Finset.sum_range_succ', Nat.add_comm]
    rfl

theorem sumTo_eq_sum_map_range (f : Nat → Nat) (n : Nat) : sumTo f n = ((List.range n).map f).sum := by
  induction n with
  | zero => rfl
  | succ n ih => rw [sumTo, ih, List.range_succ, List.map_append, List.sum_append, List.map_singleton, List.sum_singleton]

/-- R141: `c0 + 59 × SPS + SPS ≤ LASTCAND + FRAMELEN = N`. -/
theorem fixed_span_le_n {c : Cfg} (hc : c.valid = true) {c0 : Nat} (hc0 : c0 ≤ c.lastCand) {e : FixedPos}
    (he : e ∈ c.fixmap) : c0 + e.pos * c.sps + c.sps ≤ c.n := by
  have hframe : (e.pos + 1) * c.sps ≤ 60 * c.sps := Nat.mul_le_mul_right _ (Cfg.valid_fixmap_entry hc he).1
  have hlast : c.lastCand + 60 * c.sps = c.n := Cfg.valid_lastCand hc
  rw [Nat.succ_mul] at hframe
  omega

/-- Settles O24: the sum over the entries of FIXMAP is one over their 18 indices, each score is at most SPS, and a frame
at a candidate offset fits. -/
theorem syncTotalSumsEighteenScores : Obligations.SyncTotalSumsEighteenScores := by
  intro c S c0 hc hc0
  have hlen := Cfg.valid_fixmap_length hc
  refine ⟨hlen, ?_, syncTotal_le hc S c0, fun e => fixed_span_le_n hc hc0⟩
  rw [syncTotal, sum_map_eq_sum_range_length, hlen]
  rfl

theorem syncTotal_eq_zero_iff {s : State} {c0 : Nat} :
    syncTotal s.cfg s.samples c0 = 0 ↔ ∀ e ∈ s.cfg.fixmap, spanIs s (spanStart s.cfg c0 e.pos) e.sym := by
  simp only [syncTotal, List.sum_eq_zero_iff, List.forall_mem_map, entryScore, score_eq_zero_iff, spanIs]

/-! ### The best of a list of candidates -/

/-- R143 for the candidates of a list with the totals `f`: the pair (offset, total) of the least total at the lowest offset
that reaches it. -/
structure IsBest (f : Nat → Nat) (cands : List Nat) (r : Nat × Nat) : Prop where
  candidate : r.1 ∈ cands
  total : r.2 = f r.1
  least : ∀ n ∈ cands, r.2 ≤ f n
  lowest : ∀ n ∈ cands, n < r.1 → r.2 < f n

namespace IsBest
variable {f : Nat → Nat} {l l' : List Nat} {a b : Nat × Nat}

theorem unique (ha : IsBest f l a) (hb : IsBest f l b) : a = b := by
  have htot : a.2 = b.2 :=
    Nat.le_antisymm (hb.total ▸ ha.least _ hb.candidate) (ha.total ▸ hb.least _ ha.candidate)
  refine Prod.ext ?_ htot
  rcases Nat.lt_trichotomy a.1 b.1 with hlt | heq | hgt
  · exact absurd (hb.lowest _ ha.candidate hlt) (by rw [← ha.total]; omega)
  · exact heq
  · exact absurd (ha.lowest _ hb.candidate hgt) (by rw [← hb.total]; omega)

theorem perm (h : IsBest f l a) (hl : l.Perm l') : IsBest f l' a where
  candidate := hl.mem_iff.1 h.candidate
  total := h.total
  least n hn := h.least n (hl.mem_iff.2 hn)
  lowest n hn := h.lowest n (hl.mem_iff.2 hn)

theorem singleton (f : Nat → Nat) (n : Nat) : IsBest f [n] (n, f n) where
  candidate := List.mem_singleton_self n
  total := rfl
  least m hm := by rw [List.mem_singleton.1 hm]
  lowest m hm hlt := absurd (List.mem_singleton.1 hm) hlt.ne

/-- R149: the tie-break of the merge is what keeps the lowest offset. -/
theorem merge (ha : IsBest f l a) (hb : IsBest f l' b) : IsBest f (l ++ l') (mergeBest a b) := by
  unfold mergeBest
  split
  · next h =>
    refine ⟨List.mem_append_right _ hb.candidate, hb.total, List.forall_mem_append.2 ⟨fun n hn => ?_, hb.least⟩,
      List.forall_mem_append.2 ⟨fun n hn hlt => ?_, hb.lowest⟩⟩
    · have := ha.least n hn
      omega
    · have := ha.least n hn
      have := ha.lowest n hn
      omega
  · next h =>
    refine ⟨List.mem_append_left _ ha.candidate, ha.total, List.forall_mem_append.2 ⟨ha.least, fun n hn => ?_⟩,
      List.forall_mem_append.2 ⟨ha.lowest, fun n hn hlt => ?_⟩⟩
    · have := hb.least n hn
      omega
    · have := hb.least n hn
      have := hb.lowest n hn
      omega

/-- R145: in rising order a later candidate needs a strictly smaller total, which is the merge with it alone. -/
theorem next {m : Nat} (h : IsBest f (List.range m) b) :
    IsBest f (List.range (m + 1)) (if f m < b.2 then (m, f m) else b) := by
  have hlt : ¬m < b.1 := Nat.not_lt.2 (List.mem_range.1 h.candidate).le
  have hmerge := h.merge (singleton f m)
  simp only [mergeBest, hlt, and_false, or_false] at hmerge
  rwa [List.range_succ]

end IsBest

/-! ### The search returns the best candidate -/

section
variable {p : Prune} {c : Cfg} {S : Samples}

/-- R146: partial sums never decrease, so a candidate that an allowed test abandons has a total no smaller than the running
best. -/
theorem refCandidate_cases (hp : p.allowed) (best : Option Nat) (c0 : Nat) (es : List FixedPos) (total evals : Nat) :
    (refCandidate p c S best c0 es total evals).1 = some (total + (es.map (entryScore c S c0)).sum) ∨
      ((refCandidate p c S best c0 es total evals).1 = none ∧
        ∃ b, best = some b ∧ b ≤ total + (es.map (entryScore c S c0)).sum) := by
  induction es generalizing total evals with
  | nil => exact .inl rfl
  | cons e es ih =>
    rw [List.map_cons, List.sum_cons, ← Nat.add_assoc, refCandidate]
    cases habandon : p.abandons c0 es.length best (total + entryScore c S c0 e) with
    | false => exact ih _ _
    | true =>
      cases best with
      | none => cases habandon
      | some b => exact .inr ⟨rfl, b, rfl, (hp _ _ _ _ habandon).trans (Nat.le_add_right _ _)⟩

theorem never_allowed : Prune.never.allowed := fun _ _ _ _ h => absurd h Bool.false_ne_true

theorem exceeds_allowed : Prune.exceeds.allowed := fun _ _ _ _ h => (Nat.blt_eq.mp h).le

theorem reaches_allowed : Prune.reaches.allowed := fun _ _ _ _ h => Nat.le_of_ble_eq_true h

/-- The model's loop over FIXMAP is that of R145 with the test `partial > best`. -/
theorem candidateTotal_eq_refCandidate (best c0 : Nat) (es : List FixedPos) (total evals : Nat) :
    candidateTotal c S best c0 es total = (refCandidate Prune.exceeds c S (some best) c0 es total evals).1 := by
  induction es generalizing total evals with
  | nil => rfl
  | cons e es ih =>
    rw [candidateTotal, forced_eq, refCandidate, ih _ (evals + 1)]
    cases habandon : Nat.blt best (total + entryScore c S c0 e) <;> simp [Prune.abandons, Prune.exceeds, habandon]

/-- R145, R146: one candidate replaces the running best when its complete total is strictly smaller. -/
theorem searchFrom_succ (k c0 : Nat) (best : Nat × Nat) :
    searchFrom c S (k + 1) c0 best =
      searchFrom c S k (c0 + 1) (if syncTotal c S c0 < best.2 then (c0, syncTotal c S c0) else best) := by
  have hcases := refCandidate_cases (c := c) (S := S) exceeds_allowed (some best.2) c0 c.fixmap 0 0
  rw [← candidateTotal_eq_refCandidate, Nat.zero_add, ← syncTotal] at hcases
  obtain hall | ⟨hnone, _, ⟨⟩, hle⟩ := hcases
  · simp only [searchFrom, hall, Bool.cond_eq_ite, Nat.blt_eq]
  · simp only [searchFrom, hnone, if_neg (Nat.not_lt.2 hle)]

theorem searchFrom_isBest (k : Nat) {c0 : Nat} {best : Nat × Nat} (h : IsBest (syncTotal c S) (List.range c0) best) :
    IsBest (syncTotal c S) (List.range (c0 + k)) (searchFrom c S k c0 best) := by
  induction k generalizing c0 best with
  | zero => exact h
  | succ k ih =>
    rw [searchFrom_succ, ← Nat.succ_add_eq_add_succ]
    exact ih h.next

theorem findFrame_isBest (c : Cfg) (S : Samples) :
    IsBest (syncTotal c S) (List.range (c.lastCand + 1)) (findFrame c S) :=
  Nat.add_comm 1 c.lastCand ▸ searchFrom_isBest c.lastCand (IsBest.singleton (syncTotal c S) 0)

theorem findFrame_snd_eq (c : Cfg) (S : Samples) : (findFrame c S).2 = syncTotal c S (findFrame c S).1 :=
  (findFrame_isBest c S).total

theorem findFrame_least {c0 : Nat} (h : c0 ≤ c.lastCand) : (findFrame c S).2 ≤ syncTotal c S c0 :=
  (findFrame_isBest c S).least c0 (List.mem_range.2 (Nat.lt_succ_of_le h))

theorem findFrame_lowest {c0 : Nat} (h : c0 < (findFrame c S).1) : (findFrame c S).2 < syncTotal c S c0 :=
  (findFrame_isBest c S).lowest c0 (List.mem_range.2 (Nat.lt_succ_of_lt (h.trans_le (findFrame_fst_le c S)))) h

end

/-- Settles O25: the search returns the best of the candidates 0 .. LASTCAND. -/
theorem findFrameIsLeastTotalAtLowestOffset : Obligations.FindFrameIsLeastTotalAtLowestOffset :=
  fun c S => ⟨findFrame_fst_le c S, findFrame_snd_eq c S, fun _ => findFrame_least, fun _ => findFrame_lowest⟩

/-! ### The procedure of R145 with any pruning -/

/-- The running best of R145 is the pair (offset, total). -/
def RefSearch.holds (r : RefSearch) (b : Nat × Nat) : Prop := r.bestoff = some b.1 ∧ r.best = some b.2

theorem offer_none (r : RefSearch) (c0 : Nat) : r.offer c0 none = r := by cases h : r.best <;> simp [RefSearch.offer]

theorem offer_accepts {r : RefSearch} {t : Nat} (c0 : Nat) (h : ∀ b, r.best = some b → t < b) :
    (r.offer c0 (some t)).holds (c0, t) := by
  cases hbest : r.best with
  | none => simp [RefSearch.offer, RefSearch.holds, hbest]
  | some b => simp [RefSearch.offer, RefSearch.holds, hbest, Bool.cond_eq_ite, h b hbest]

theorem offer_holds {r : RefSearch} {b : Nat × Nat} (c0 t : Nat) (hr : r.holds b) :
    (r.offer c0 (some t)).holds (if t < b.2 then (c0, t) else b) := by
  simp only [RefSearch.offer, hr.2, Bool.cond_eq_ite, Nat.blt_eq]
  split
  · exact ⟨rfl, rfl⟩
  · exact hr

section
variable {p : Prune} {c : Cfg} {S : Samples} (hp : p.allowed)
include hp

/-- R145, R146: a round offers the complete total, or abandons a candidate that would not replace the running best. -/
theorem refRound_cases (r : RefSearch) (c0 : Nat) :
    ∃ evals, refRound p c S r c0 = { r with evals := evals }.offer c0 (some (syncTotal c S c0)) ∨
      (refRound p c S r c0 = { r with evals := evals } ∧ ∃ b, r.best = some b ∧ b ≤ syncTotal c S c0) := by
  have hcases := refCandidate_cases (c := c) (S := S) hp r.best c0 c.fixmap 0 r.evals
  rw [Nat.zero_add, ← syncTotal] at hcases
  refine ⟨(refCandidate p c S r.best c0 c.fixmap 0 r.evals).2, ?_⟩
  obtain hall | ⟨hnone, hb⟩ := hcases
  · exact .inl (by rw [refRound, hall])
  · exact .inr ⟨by rw [refRound, hnone, offer_none], hb⟩

/-- R147: the first candidate is accepted, whatever the initial best. -/
theorem refRound_accepts {r : RefSearch} {c0 : Nat} (h : ∀ b, r.best = some b → syncTotal c S c0 < b) :
    (refRound p c S r c0).holds (c0, syncTotal c S c0) := by
  obtain ⟨evals, hround | ⟨-, b, hb, hle⟩⟩ := refRound_cases (c := c) (S := S) hp r c0
  · rw [hround]
    exact offer_accepts c0 h
  · exact absurd (h b hb) (Nat.not_lt.2 hle)

theorem refRound_holds {r : RefSearch} {b : Nat × Nat} (c0 : Nat) (hr : r.holds b) :
    (refRound p c S r c0).holds (if syncTotal c S c0 < b.2 then (c0, syncTotal c S c0) else b) := by
  obtain ⟨evals, hround | ⟨hround, b', hb', hle⟩⟩ := refRound_cases (c := c) (S := S) hp r c0 <;> rw [hround]
  · exact offer_holds (r := { r with evals := evals }) c0 _ hr
  · obtain rfl := Option.some.inj (hr.2.symm.trans hb')
    rw [if_neg (Nat.not_lt.2 hle)]
    exact hr

/-- R146, R147: candidate 0 is accepted, and each round takes the best of the candidates so far to the best with one more. -/
theorem refRounds_isBest (hc : c.valid = true) {init : Option Nat} (hinit : ∀ v, init = some v → 18 * c.sps < v)
    (m : Nat) :
    ∃ b, ((List.range (m + 1)).foldl (refRound p c S) ⟨init, none, 0⟩).holds b ∧
      IsBest (syncTotal c S) (List.range (m + 1)) b := by
  induction m with
  | zero =>
    exact ⟨_, refRound_accepts hp fun v hv => (syncTotal_le hc S 0).trans_lt (hinit v hv), IsBest.singleton _ 0⟩
  | succ m ih =>
    obtain ⟨b, hr, hb⟩ := ih
    refine ⟨_, ?_, hb.next⟩
    rw [List.range_succ, List.foldl_append]
    exact refRound_holds hp (m + 1) hr

end

/-- Settles O26: the procedure ends with the best candidate, which is one pair. -/
theorem pruningDoesNotChangeTheResult : Obligations.PruningDoesNotChangeTheResult := by
  refine ⟨⟨never_allowed, exceeds_allowed, reaches_allowed⟩, fun p init c S hp hc hinit => ?_⟩
  obtain ⟨b, hr, hb⟩ := refRounds_isBest (S := S) hp hc hinit c.lastCand
  rw [(findFrame_isBest c S).unique hb]
  exact hr

/-! ### Orders that cannot be seen -/

/-- Settles O28: the totals, and so the best candidate, are sums over the entries of FIXMAP, and a score is one over the
samples of its second; a sum has no order. -/
theorem mapAndSampleOrderAreInvisible : Obligations.MapAndSampleOrderAreInvisible := by
  refine ⟨fun c S l hl => ?_, fun c S st y l hl => ?_⟩
  · have htot : syncTotal { c with fixmap := l } S = syncTotal c S := funext fun c0 => (hl.map _).sum_eq.symm
    have hbest := findFrame_isBest { c with fixmap := l } S
    rw [htot] at hbest
    exact hbest.unique (findFrame_isBest c S)
  · rw [score, sumTo_eq_sum_map_range]
    exact (hl.map _).sum_eq.symm

theorem searchInOrder_isBest (c : Cfg) (S : Samples) (c0 : Nat) (cs : List Nat) :
    ∃ b, searchInOrder c S (c0 :: cs) = some b ∧ IsBest (syncTotal c S) (c0 :: cs) b := by
  induction cs generalizing c0 with
  | nil => exact ⟨_, rfl, IsBest.singleton _ c0⟩
  | cons c1 cs ih =>
    obtain ⟨b, hsearch, hb⟩ := ih c1
    refine ⟨mergeBest (c0, syncTotal c S c0) b, ?_, (IsBest.singleton _ c0).merge hb⟩
    rw [searchInOrder, hsearch]

/-- Settles O29: the merge gives the best of the list, which is that of the candidates in rising order. -/
theorem candidateOrderIsInvisible : Obligations.CandidateOrderIsInvisible := by
  intro c S order horder
  have hbest := (findFrame_isBest c S).perm horder
  cases order with
  | nil => exact absurd hbest.candidate List.not_mem_nil
  | cons c0 cs =>
    obtain ⟨b, hsearch, hb⟩ := searchInOrder_isBest c S c0 cs
    rw [hsearch, hb.unique hbest]

/-! ### The operation -/

/-- R27, R28: both values fit their registers. -/
theorem setSync_findFrame_complete_toNat {s : State} (hc : s.cfg.valid = true) :
    let r := findFrame s.cfg s.samples
    (s.setSync r.1 r.2).complete.rOffset.toNat = r.1 ∧ (s.setSync r.1 r.2).complete.rSyncerr.toNat = r.2 := by
  have hlast := Cfg.valid_lastCand hc
  have hn := (Cfg.valid_bufsec hc).2
  have hsps := (Cfg.valid_sps hc).2.2
  have hoff := findFrame_fst_le s.cfg s.samples
  have htot := findFrame_snd_le hc s.samples
  exact ⟨toNat_ofNat_of_le hoff (by omega), toNat_ofNat_of_le htot (by omega)⟩

/-- Settles O30: FINDFRAME commits the pair of the search, which fits R_OFFSET and R_SYNCERR. -/
theorem findframeOperation : Obligations.FindframeOperation := by
  intro s hc
  obtain ⟨hoff, htot⟩ := setSync_findFrame_complete_toNat hc
  refine ⟨_, exec_findframe s, ?_⟩
  rw [hoff, htot]
  exact ⟨findFrame_fst_le _ _, findFrame_snd_eq _ _, fun _ => findFrame_least, fun _ => findFrame_lowest, rfl⟩

/-- Settles O31: a total is 0 exactly where the 18 spans are the templates, and a total depends on its own spans only. -/
theorem perfectCandidateIsFound : Obligations.PerfectCandidateIsFound := by
  refine ⟨fun s p _ hp hspans => ?_, fun s t c0 hcfg h => ?_⟩
  · have hperfect := syncTotal_eq_zero_iff.2 hspans
    have hzero : (findFrame s.cfg s.samples).2 = 0 := Nat.le_zero.1 (hperfect ▸ findFrame_least hp)
    refine ⟨hzero, Nat.le_of_not_lt fun hlt => ?_, syncTotal_eq_zero_iff.1 (findFrame_snd_eq _ _ ▸ hzero)⟩
    exact absurd (findFrame_lowest hlt) (by omega)
  · rw [hcfg]
    refine syncTotal_congr fun k hk => ?_
    rw [samples_at, samples_at, h k hk]

end Sys2Proof.Machine
end

section
/-! One field (42_field_decoder.md R161 – R168): `decodeField` in closed form, by the classifications of the code's
positions, and what follows from it. -/

namespace Sys2Proof.Machine

/-! ### The closed form of `decodeField` -/

/-- What `classify` returns at the position of a pair of a field's code (R161). -/
def classifyPair (c : Cfg) (S : Samples) (fs : Nat) (e : CodePair) : Symbol × Nat := classify c S (spanStart c fs e.pos)

/-- Some position of the code classifies as MARKER: the condition of R163 for a failed field. -/
def hasMarker (cl : CodePair → Symbol × Nat) (es : List CodePair) : Prop := ∃ e ∈ es, (cl e).1 = .marker

/-- What a field without a MARKER returns, by the classifications of its positions (R163). -/
def goodField (cl : CodePair → Symbol × Nat) (es : List CodePair) : FieldResult :=
  ⟨(es.map fun e => e.weight * bitValue (cl e).1).sum, (es.map fun e => (cl e).2).sum,
    (es.map fun e => (cl e).2).foldr max 0, false⟩

theorem hasMarker_cons {cl : CodePair → Symbol × Nat} {e : CodePair} {es : List CodePair} :
    hasMarker cl (e :: es) ↔ (cl e).1 = .marker ∨ hasMarker cl es := List.exists_mem_cons_iff ..

section
variable {c : Cfg} {S : Samples} {fs : Nat}

theorem decodePairs_cons_of_marker {e : CodePair} (h : (classifyPair c S fs e).1 = .marker) (es : List CodePair)
    (value sc worst : Nat) : decodePairs c S fs (e :: es) value sc worst = failedField c := by
  rw [classifyPair] at h
  simp only [decodePairs, h]

theorem decodePairs_cons_of_not_marker {e : CodePair} (h : (classifyPair c S fs e).1 ≠ .marker) (es : List CodePair)
    (value sc worst : Nat) :
    decodePairs c S fs (e :: es) value sc worst =
      decodePairs c S fs es (value + e.weight * bitValue (classifyPair c S fs e).1) (sc + (classifyPair c S fs e).2)
        (max worst (classifyPair c S fs e).2) := by
  rw [decodePairs]
  split
  · next hm => exact absurd hm h
  · rfl

/-- R163, R164: a MARKER anywhere fails the loop, whatever was accumulated before it. -/
theorem decodePairs_of_marker {es : List CodePair} (h : hasMarker (classifyPair c S fs) es) (value sc worst : Nat) :
    decodePairs c S fs es value sc worst = failedField c := by
  induction es generalizing value sc worst with
  | nil => obtain ⟨_, he, -⟩ := h; cases he
  | cons e es ih =>
    by_cases he : (classifyPair c S fs e).1 = .marker
    · exact decodePairs_cons_of_marker he es _ _ _
    · rw [decodePairs_cons_of_not_marker he]
      exact ih ((hasMarker_cons.1 h).resolve_left he) _ _ _

/-- R163: without a MARKER each accumulator takes in what the code's positions give it. -/
theorem decodePairs_of_no_marker {es : List CodePair} (h : ¬hasMarker (classifyPair c S fs) es) (value sc worst : Nat) :
    decodePairs c S fs es value sc worst =
      ⟨value + (goodField (classifyPair c S fs) es).value, sc + (goodField (classifyPair c S fs) es).score,
        max worst (goodField (classifyPair c S fs) es).worst, false⟩ := by
  induction es generalizing value sc worst with
  | nil => simp [decodePairs, goodField]
  | cons e es ih =>
    obtain ⟨he, hes⟩ := not_or.1 (mt hasMarker_cons.2 h)
    rw [decodePairs_cons_of_not_marker he, ih hes]
    simp only [goodField, List.map_cons, List.sum_cons, List.foldr_cons, Nat.add_assoc, max_assoc]

variable {f : FieldIx}

theorem decodeField_of_marker (h : hasMarker (classifyPair c S fs) c.field[f]) :
    decodeField c S fs f = failedField c :=
  decodePairs_of_marker h 0 0 0

theorem decodeField_of_no_marker (h : ¬hasMarker (classifyPair c S fs) c.field[f]) :
    decodeField c S fs f = goodField (classifyPair c S fs) c.field[f] := by
  rw [decodeField, decodePairs_of_no_marker h]
  simp [goodField]

end

/-! ### The parts of a field that does not fail -/

theorem sum_weight_mul_bitValue (sym : CodePair → Symbol) (es : List CodePair) :
    (es.map fun e => e.weight * bitValue (sym e)).sum =
      ((es.filter fun e => decide (sym e = .one)).map CodePair.weight).sum := by
  induction es with
  | nil => rfl
  | cons e es ih =>
    rw [List.map_cons, List.sum_cons, ih]
    cases h : sym e <;> simp [h, bitValue]

theorem foldr_max_zero_or_mem (l : List Nat) : l.foldr max 0 = 0 ∨ l.foldr max 0 ∈ l := by
  induction l with
  | nil => exact .inl rfl
  | cons n l ih =>
    rw [List.foldr_cons]
    rcases max_cases n (l.foldr max 0) with ⟨h, -⟩ | ⟨h, -⟩ <;> rw [h]
    · exact .inr List.mem_cons_self
    · exact ih.imp_right (List.mem_cons_of_mem n)

theorem le_goodField_worst {cl : CodePair → Symbol × Nat} {e : CodePair} {es : List CodePair} (he : e ∈ es) :
    (cl e).2 ≤ (goodField cl es).worst :=
  List.le_max_of_le' 0 (List.mem_map_of_mem he) le_rfl

theorem goodField_worst_cases (cl : CodePair → Symbol × Nat) (es : List CodePair) :
    (goodField cl es).worst = 0 ∨ ∃ e ∈ es, (goodField cl es).worst = (cl e).2 := by
  refine (foldr_max_zero_or_mem _).imp_right fun h => ?_
  obtain ⟨e, he, heq⟩ := List.mem_map.1 h
  exact ⟨e, he, heq.symm⟩

/-- Settles O32: the two closed forms of `decodeField`, by whether some position classifies as MARKER. -/
theorem fieldResultByPositions : Obligations.FieldResultByPositions := by
  intro c S fs f cl r
  by_cases hm : hasMarker (classifyPair c S fs) c.field[f]
  · have hr : r = failedField c := decodeField_of_marker hm
    rw [hr]
    exact ⟨iff_of_true rfl hm, fun _ => ⟨rfl, rfl, rfl⟩, fun h => Bool.noConfusion h⟩
  · have hr : r = goodField (classifyPair c S fs) c.field[f] := decodeField_of_no_marker hm
    rw [hr]
    exact ⟨iff_of_false Bool.false_ne_true hm, fun h => Bool.noConfusion h, fun _ =>
      ⟨sum_weight_mul_bitValue _ _, rfl, fun e he => le_goodField_worst he, goodField_worst_cases _ _⟩⟩

/-! ### The order of the pairs -/

theorem classifyPair_of_sps_eq {c d : Cfg} (h : d.sps = c.sps) (S : Samples) (fs : Nat) :
    classifyPair d S fs = classifyPair c S fs := by
  have hlow : d.lowLen = c.lowLen := funext fun y => by rw [Cfg.lowLen, Cfg.lowLen, h]
  have htmpl : tmpl d = tmpl c := funext fun y => funext fun i => decide_eq_decide.2 (by rw [hlow])
  funext e
  simp only [classifyPair, spanStart, classify, score, htmpl, h]

theorem hasMarker_perm {cl : CodePair → Symbol × Nat} {es es' : List CodePair} (h : es.Perm es') :
    hasMarker cl es ↔ hasMarker cl es' := by
  simp only [hasMarker, h.mem_iff]

/-- R167: neither a sum nor a maximum has an order. -/
theorem goodField_perm {cl : CodePair → Symbol × Nat} {es es' : List CodePair} (h : es.Perm es') :
    goodField cl es = goodField cl es' := by
  simp only [goodField, (h.map _).sum_eq, (h.map fun e => (cl e).2).foldr_eq]

/-- Settles O33: whether a field fails and the closed form of what it returns do not see the order of its pairs. -/
theorem codeOrderIsInvisible : Obligations.CodeOrderIsInvisible := by
  intro c d S fs f hsps hfailure hcode
  have hcl := classifyPair_of_sps_eq hsps S fs
  by_cases hm : hasMarker (classifyPair c S fs) c.field[f]
  · have hm' : hasMarker (classifyPair d S fs) d.field[f] := by rwa [hcl, ← hasMarker_perm hcode]
    rw [decodeField_of_marker hm, decodeField_of_marker hm', failedField, failedField, hsps, hfailure]
  · have hm' : ¬hasMarker (classifyPair d S fs) d.field[f] := by rwa [hcl, ← hasMarker_perm hcode]
    rw [decodeField_of_no_marker hm, decodeField_of_no_marker hm', hcl, goodField_perm hcode]

/-! ### The laws -/

/-- R168(a): at a template `classify` returns its symbol with score 0. -/
theorem decodeField_of_templates {s : State} {fs : Nat} {f : FieldIx} (hc : s.cfg.valid = true)
    {want : CodePair → Symbol}
    (h : ∀ e ∈ s.cfg.field[f], want e ≠ .marker ∧ spanIs s (spanStart s.cfg fs e.pos) (want e)) :
    decodeField s.cfg s.samples fs f =
      ⟨((s.cfg.field[f].filter fun e => decide (want e = .one)).map CodePair.weight).sum, 0, 0, false⟩ := by
  have hcl : ∀ e ∈ s.cfg.field[f], classifyPair s.cfg s.samples fs e = (want e, 0) := fun e he =>
    classify_template hc (h e he).2
  have hm : ¬hasMarker (classifyPair s.cfg s.samples fs) s.cfg.field[f] := by
    rintro ⟨e, he, hmarker⟩
    rw [hcl e he] at hmarker
    exact (h e he).1 hmarker
  have hzero : (s.cfg.field[f].map fun e => (classifyPair s.cfg s.samples fs e).2) =
      s.cfg.field[f].map fun _ => 0 := List.map_congr_left fun e he => by rw [hcl e he]
  have hvalue : (s.cfg.field[f].map fun e => e.weight * bitValue (classifyPair s.cfg s.samples fs e).1) =
      s.cfg.field[f].map fun e => e.weight * bitValue (want e) := List.map_congr_left fun e he => by rw [hcl e he]
  have hworst : (s.cfg.field[f].map fun _ => 0).foldr max 0 = 0 :=
    Nat.le_zero.1 (List.max_le_of_forall_le _ 0 (by simp))
  rw [decodeField_of_no_marker hm, goodField, hzero, hvalue, hworst, sum_weight_mul_bitValue]
  simp

/-- R168(b): FAILURE_SCORE is above every sum of scores. -/
theorem decodeField_score_lt {c : Cfg} (hc : c.valid = true) {S : Samples} {fs : Nat} {f : FieldIx}
    (hf : (decodeField c S fs f).fail = false) : (decodeField c S fs f).score < c.failureScore :=
  (decodeField_score_le_of_not_fail hc S fs f hf).trans_lt ((Cfg.valid_failureScore hc).1 f)

/-- Settles O34, law by law. -/
theorem fieldLawsOfR168 : Obligations.FieldLawsOfR168 := by
  intro s fs f hc
  refine ⟨fun want => decodeField_of_templates hc, fun hf => ?_, decodeField_failed hc,
    fun want hwant m => ⟨?_, fun hf => ?_⟩, fun m hm => decodeField_congr fun k hk => ?_⟩
  · obtain ⟨hvalue, hscore, hworst_score, hworst⟩ := decodeField_inRange hc hf
    exact ⟨hworst_score, hscore, hworst, decodeField_score_lt hc hf, hvalue⟩
  · rw [decodeField_of_templates hc hwant]
    exact Nat.zero_le _
  · rw [decodeField_failed hc hf]
    exact (Nat.zero_le _).trans_lt ((Cfg.valid_failureScore hc).1 f)
  · rw [samples_at, samples_at, hm k hk]

end Sys2Proof.Machine
end

section
/-! The whole frame and the three operations of the Field Decoder (42_field_decoder.md R162, R170 – R175): the aggregates,
what the registers of a field hold after a decode, and the ends of DECFIELD, DECFRAME and DECODE. -/

namespace Sys2Proof.Machine

/-! ### The aggregates of a frame -/

section
variable (c : Cfg) (S : Samples) (fs : Nat)

theorem frameTotal_eq_sum : frameTotal c S fs = ∑ g : FieldIx, (decodeField c S fs g).score := by
  rw [frameTotal, frameResults, List.map_map, Fin.sum_univ_def]
  rfl

theorem mem_frameResults {r : FieldResult} : r ∈ frameResults c S fs ↔ ∃ g, decodeField c S fs g = r := by
  have hall : ∀ g : FieldIx, g ∈ FieldIx.all := by decide
  simp only [frameResults, List.mem_map, hall, true_and]

theorem worst_le_frameWorst (g : FieldIx) : (decodeField c S fs g).worst ≤ frameWorst c S fs :=
  List.le_max_of_le' 0 (List.mem_map_of_mem ((mem_frameResults c S fs).2 ⟨g, rfl⟩)) le_rfl

/-- R170: the maximum over the seven fields is reached by one of them; when it is 0, by every one. -/
theorem exists_frameWorst_eq : ∃ g, frameWorst c S fs = (decodeField c S fs g).worst := by
  rcases foldr_max_zero_or_mem ((frameResults c S fs).map FieldResult.worst) with hzero | hmem
  · have hle := worst_le_frameWorst c S fs 0
    exact ⟨0, Nat.le_antisymm (hzero.trans_le (Nat.zero_le _)) hle⟩
  · obtain ⟨r, hr, hworst⟩ := List.mem_map.1 hmem
    obtain ⟨g, rfl⟩ := (mem_frameResults c S fs).1 hr
    exact ⟨g, hworst.symm⟩

end

/-- R172: a field's score is its own or the sentinel. -/
theorem decodeField_score_split {c : Cfg} (hc : c.valid = true) (S : Samples) (fs : Nat) (g : FieldIx) :
    (decodeField c S fs g).score =
      (if (decodeField c S fs g).fail then 0 else (decodeField c S fs g).score) +
        (if (decodeField c S fs g).fail = true then c.failureScore else 0) := by
  cases hf : (decodeField c S fs g).fail with
  | true => rw [decodeField_failed hc hf]; exact (Nat.zero_add _).symm
  | false => rfl

/-- Settles O37: the scores are added up field by field, seven of them fit 32 bits, and SPS is the greatest worst. -/
theorem failedFieldsInTheAggregates : Obligations.FailedFieldsInTheAggregates := by
  intro c S fs hc r
  refine ⟨?_, (frameTotal_le hc S fs).trans_lt (by decide), fun ⟨g, hg⟩ => ?_⟩
  · rw [frameTotal_eq_sum, Finset.sum_congr rfl fun g _ => decodeField_score_split hc S fs g, Finset.sum_add_distrib,
      ← Finset.sum_filter, Finset.sum_const, smul_eq_mul, Nat.mul_comm]
  · have hworst : (decodeField c S fs g).worst = c.sps := by rw [decodeField_failed hc hg]; rfl
    exact Nat.le_antisymm (frameWorst_le hc S fs) (hworst.ge.trans (worst_le_frameWorst c S fs g))

/-! ### The registers of a field -/

/-- The registers of field `g` hold the result `r` (R29 – R32). -/
structure State.HoldsField (s : State) (g : FieldIx) (r : FieldResult) : Prop where
  value : s.fValue[g] = BitVec.ofNat 16 r.value
  score : s.fScore[g] = BitVec.ofNat 16 r.score
  worst : s.fWorst[g] = BitVec.ofNat 16 r.worst
  fail : s.fFail.getLsbD g = r.fail

/-- R45: the four outputs of `decodeField` fit their registers. -/
theorem State.HoldsField.toNat {s : State} {c : Cfg} (hc : c.valid = true) {S : Samples} {fs : Nat} {g : FieldIx}
    (h : s.HoldsField g (decodeField c S fs g)) :
    s.fValue[g].toNat = (decodeField c S fs g).value ∧ s.fScore[g].toNat = (decodeField c S fs g).score ∧
      s.fWorst[g].toNat = (decodeField c S fs g).worst ∧ s.fFail.getLsbD g = (decodeField c S fs g).fail := by
  have hvalue := (decodeField_value_le hc S fs g).trans (Cfg.valid_weightSum hc g)
  have hscore := (decodeField_score_le hc S fs g).trans (Cfg.valid_failureScore hc).2
  have hworst := (decodeField_worst_le hc S fs g).trans (Cfg.valid_sps hc).2.2
  rw [h.value, h.score, h.worst]
  exact ⟨toNat_ofNat_of_le hvalue (by decide), toNat_ofNat_of_le hscore (by decide),
    toNat_ofNat_of_le hworst (by decide), h.fail⟩

theorem putField_complete_holdsField (s : State) (g : FieldIx) (r : FieldResult) :
    (s.putField g r).complete.HoldsField g r where
  value := (set_get _ g g _).trans (if_pos rfl)
  score := (set_get _ g g _).trans (if_pos rfl)
  worst := (set_get _ g g _).trans (if_pos rfl)
  fail := (withFailBit_get _ g g _).trans (if_pos rfl)

/-- R162: "the registers of the other six fields … are not touched". -/
theorem putField_complete_other (s : State) {g h : FieldIx} (hne : h ≠ g) (r : FieldResult) :
    let t := (s.putField g r).complete
    t.fValue[h] = s.fValue[h] ∧ t.fScore[h] = s.fScore[h] ∧ t.fWorst[h] = s.fWorst[h] ∧
      t.fFail.getLsbD h = s.fFail.getLsbD h :=
  ⟨(set_get _ g h _).trans (if_neg hne), (set_get _ g h _).trans (if_neg hne), (set_get _ g h _).trans (if_neg hne),
    (withFailBit_get _ g h _).trans (if_neg hne)⟩

theorem putFrame_complete_holdsField (s : State) (S : Samples) (fs : Nat) (g : FieldIx) :
    (s.putFrame S fs).complete.HoldsField g (decodeField s.cfg S fs g) where
  value := fieldArray_get _ g
  score := fieldArray_get _ g
  worst := fieldArray_get _ g
  fail := failBits_get _ g

/-- R33, R34, R172: both aggregates fit their registers. -/
theorem putFrame_complete_aggregates {s : State} (hc : s.cfg.valid = true) (S : Samples) (fs : Nat) :
    (s.putFrame S fs).complete.aScore.toNat = frameTotal s.cfg S fs ∧
      (s.putFrame S fs).complete.aWorst.toNat = frameWorst s.cfg S fs :=
  ⟨toNat_ofNat_of_le (frameTotal_le hc S fs) (by decide),
    toNat_ofNat_of_le ((frameWorst_le hc S fs).trans (Cfg.valid_sps hc).2.2) (by decide)⟩

/-! ### The operations -/

section
variable {s : State} {start : Nat}

theorem exec_decfield_of_fits (g : FieldIx) (h : start + s.cfg.frameLen ≤ s.cfg.n) :
    exec (.decfield g.val start) s = .next (s.putField g (decodeField s.cfg s.samples start g)).complete := by
  rw [exec_decfield, fieldOf?_val]
  exact if_pos h

theorem exec_decfield_of_not_fits (g : FieldIx) (h : s.cfg.n < start + s.cfg.frameLen) :
    exec (.decfield g.val start) s = .next (s.raise .bounds) := by
  rw [exec_decfield, fieldOf?_val]
  exact if_neg (Nat.not_le.2 h)

theorem exec_decframe_of_fits (h : start + s.cfg.frameLen ≤ s.cfg.n) :
    exec (.decframe start) s = .next (s.putFrame s.samples start).complete := by
  rw [exec_decframe, if_pos h]

theorem exec_decframe_of_not_fits (h : s.cfg.n < start + s.cfg.frameLen) :
    exec (.decframe start) s = .next (s.raise .bounds) := by
  rw [exec_decframe, if_neg (Nat.not_le.2 h)]

end

/-- The symbols of minute 34 at the positions of MINUTES: the weights 20, 10 and 4 are ONE (R162, R10). -/
def minute34 (e : CodePair) : Symbol := if e.weight ∈ [20, 10, 4] then .one else .zero

theorem wce1_minutes_minute34 :
    Cfg.wce1.field[FieldIx.minutes].map (fun e => (e.pos, minute34 e)) =
      [(1, .zero), (2, .one), (3, .one), (5, .zero), (6, .one), (7, .zero), (8, .zero)] := by decide

/-- The example of R162: the spans of minute 34 are templates, so MINUTES is a perfect field. -/
theorem decodeField_minute34 {s : State} (hcfg : s.cfg = Cfg.wce1)
    (h : ∀ e ∈ [(1, Symbol.zero), (2, .one), (3, .one), (5, .zero), (6, .one), (7, .zero), (8, .zero)],
      spanIs s (137 + e.1 * 40) e.2) :
    decodeField s.cfg s.samples 137 FieldIx.minutes = ⟨34, 0, 0, false⟩ := by
  obtain ⟨hc, hsps, -⟩ := wce1_numbers hcfg
  rw [decodeField_of_templates hc (want := minute34)]
  · simp only [hcfg]
    rfl
  · refine fun e he => ⟨?_, ?_⟩
    · unfold minute34
      split <;> decide
    · simp only [hcfg] at he
      have hspan := h _ (wce1_minutes_minute34 ▸ List.mem_map_of_mem he)
      rwa [spanStart, hsps]

/-- Settles O35: the three ends of DECFIELD; the example is a perfect field. -/
theorem decfieldOperation : Obligations.DecfieldOperation := by
  refine ⟨fun s g start hc h => ?_, fun s start => exec_decfield 7 start s,
    fun s g start h => exec_decfield_of_not_fits g h, decode_encode (i := .decfield 1 137) rfl, fun s hcfg h => ?_⟩
  · obtain ⟨hvalue, hscore, hworst, hfail⟩ := (putField_complete_holdsField s g _).toNat (S := s.samples) (fs := start) hc
    exact ⟨_, exec_decfield_of_fits g h, hvalue, hscore, hworst, hfail,
      fun g' hne => putField_complete_other s hne _, rfl⟩
  · have hc := (wce1_numbers hcfg).1
    have hfits : 137 + s.cfg.frameLen ≤ s.cfg.n := by rw [hcfg]; decide
    have hexec := exec_decfield_of_fits FieldIx.minutes hfits
    have hregs := (putField_complete_holdsField s FieldIx.minutes _).toNat (S := s.samples) (fs := 137) hc
    rw [decodeField_minute34 hcfg h] at hexec hregs
    exact ⟨_, hexec, hregs⟩

/-- Settles O36: the two ends of DECFRAME, with the seven fields and the two aggregates read back from their registers. -/
theorem decframeOperation : Obligations.DecframeOperation := by
  refine ⟨fun s start hc h => ?_, fun s start => exec_decframe_of_not_fits⟩
  obtain ⟨htotal, hworst⟩ := putFrame_complete_aggregates hc s.samples start
  refine ⟨_, exec_decframe_of_fits h, fun g => (putFrame_complete_holdsField s s.samples start g).toNat hc,
    htotal.trans (frameTotal_eq_sum _ _ _), fun g => ?_, ?_, rfl⟩
  · rw [hworst]
    exact worst_le_frameWorst _ _ _ g
  · rw [hworst]
    exact exists_frameWorst_eq _ _ _

/-- Settles O38: after either operation the registers of the field hold the same result. -/
theorem fieldsAreIsolated : Obligations.FieldsAreIsolated := by
  intro s start g h
  obtain ⟨hvalue, hscore, hworst, hfail⟩ := putFrame_complete_holdsField s s.samples start g
  obtain ⟨hvalue', hscore', hworst', hfail'⟩ := putField_complete_holdsField s g (decodeField s.cfg s.samples start g)
  exact ⟨_, _, exec_decframe_of_fits h, exec_decfield_of_fits g h, hvalue.trans hvalue'.symm,
    hscore.trans hscore'.symm, hworst.trans hworst'.symm, hfail.trans hfail'.symm⟩

/-- Settles O39: FINDFRAME leaves the offset of the search in R_OFFSET, where a frame fits, and DECFRAME there commits what
DECODE commits at once. -/
theorem decodeIsFindframeThenDecframe : Obligations.DecodeIsFindframeThenDecframe := by
  intro s hc
  have hoff := (setSync_findFrame_complete_toNat hc).1
  have hfits : (findFrame s.cfg s.samples).1 + s.cfg.frameLen ≤ s.cfg.n :=
    (Nat.add_le_add_right (findFrame_fst_le _ _) _).trans_eq (Cfg.valid_lastCand hc)
  refine ⟨_, _, exec_findframe s, ?_, rfl, exec_decode s⟩
  rw [hoff]
  exact exec_decframe_of_fits hfits

end Sys2Proof.Machine
end

section
/-! The host's functions (44_host_functions.md R190 – R196): the cumulative table as sums of month lengths, the month the
converter finds; then the obligations of this family. -/

namespace Sys2Proof.Machine

/-! ### The days before a month -/

/-- The lengths of the twelve months, which the cumulative tables of R190 add up. -/
def monthLengths (leap : Bool) : List Nat := [31, if leap then 29 else 28, 31, 30, 31, 30, 31, 31, 30, 31, 30, 31]

/-- The number of days of the year before month `m`, counted from 0. -/
def daysBefore (leap : Bool) (m : Nat) : Nat := ((monthLengths leap).take m).sum

@[simp] theorem daysBefore_zero (leap : Bool) : daysBefore leap 0 = 0 := rfl

theorem daysBefore_succ (leap : Bool) (m : Nat) :
    daysBefore leap (m + 1) = daysBefore leap m + (monthLengths leap).getD m 0 := by
  rw [daysBefore, List.take_add_one, List.sum_append, daysBefore, List.getD_eq_getElem?_getD]
  cases (monthLengths leap)[m]? <;> simp

/-- R190: entry `m` of the cumulative table counts the days of the months up to `m`. -/
theorem dayTable_eq_map (leap : Bool) : dayTable leap = (List.range 12).map (fun m => daysBefore leap (m + 1)) := by
  cases leap <;> rfl

@[simp] theorem dayTable_length (leap : Bool) : (dayTable leap).length = 12 := by simp [dayTable_eq_map]

theorem dayTable_getElem (leap : Bool) {m : Nat} (h : m < (dayTable leap).length) :
    (dayTable leap)[m] = daysBefore leap (m + 1) := by simp [dayTable_eq_map]

theorem daysBefore_twelve (leap : Bool) : daysBefore leap 12 = lastDay leap := by cases leap <;> rfl

/-! ### The converter -/

/-- The index R191 searches for: the first month whose cumulative count reaches the day. -/
def monthIndex (d : Nat) (leap : Bool) : Nat := (dayTable leap).findIdx (fun t => decide (d ≤ t))

theorem monthIndex_lt {d : Nat} {leap : Bool} (h : d ≤ lastDay leap) : monthIndex d leap < 12 := by
  rw [← dayTable_length leap]
  have h11 : 11 < (dayTable leap).length := by simp
  refine List.findIdx_lt_length_of_exists ⟨(dayTable leap)[11], List.getElem_mem h11, ?_⟩
  rwa [dayTable_getElem, daysBefore_twelve, decide_eq_true_eq]

theorem le_daysBefore_monthIndex_succ {d : Nat} {leap : Bool} (h : d ≤ lastDay leap) :
    d ≤ daysBefore leap (monthIndex d leap + 1) := by
  have hlt : monthIndex d leap < (dayTable leap).length := by simpa using monthIndex_lt h
  rw [← dayTable_getElem leap hlt]
  exact of_decide_eq_true (List.findIdx_getElem (w := hlt))

/-- The month before the found one does not reach the day, since the search took the first that does. -/
theorem daysBefore_monthIndex_lt {d : Nat} {leap : Bool} (h1 : 1 ≤ d) (h : d ≤ lastDay leap) :
    daysBefore leap (monthIndex d leap) < d := by
  have hlt := monthIndex_lt h
  cases hm : monthIndex d leap with
  | zero => exact h1
  | succ k =>
    have hk : k < monthIndex d leap := by omega
    rw [← dayTable_getElem leap (by simp; omega)]
    simpa using List.not_of_lt_findIdx hk

/-- R192: the guard. -/
theorem dayOfYearToMonthDay_of_outside {d : Nat} {leap : Bool} (h : d < 1 ∨ lastDay leap < d) :
    dayOfYearToMonthDay d leap = .invalidInput := if_pos h

/-- R191: inside the year the day of the month counts from the days before the found month, for January too. -/
theorem dayOfYearToMonthDay_of_inside {d : Nat} {leap : Bool} (h1 : 1 ≤ d) (h : d ≤ lastDay leap) :
    dayOfYearToMonthDay d leap = .date (monthIndex d leap + 1) (d - daysBefore leap (monthIndex d leap)) := by
  have hfound : dayOfYearToMonthDay d leap = .date (monthIndex d leap + 1) (if monthIndex d leap = 0 then d
      else d - (dayTable leap).getD (monthIndex d leap - 1) 0) := if_neg (by omega)
  have hlt := monthIndex_lt h
  rw [hfound]
  cases hm : monthIndex d leap with
  | zero => rfl
  | succ k =>
    have hk : k < (dayTable leap).length := by simp; omega
    simp [List.getElem?_eq_getElem hk, dayTable_getElem]

/-- Settles O58: the found month `m` is the one with `daysBefore m < d ≤ daysBefore (m + 1)`. -/
theorem calendarConversion : Obligations.CalendarConversion := by
  intro d leap
  have hlast : (if leap then 366 else 365) = lastDay leap := by cases leap <;> rfl
  rw [hlast]
  refine ⟨dayOfYearToMonthDay_of_outside, fun h1 h => ?_⟩
  have hbefore := daysBefore_monthIndex_lt h1 h
  have hupto := le_daysBefore_monthIndex_succ h
  rw [daysBefore_succ] at hupto
  exact ⟨_, _, dayOfYearToMonthDay_of_inside h1 h, monthIndex_lt h, Nat.sub_pos_of_lt hbefore,
    Nat.sub_le_iff_le_add'.2 hupto, (Nat.add_sub_cancel' hbefore.le).symm⟩

/-- Settles O59: the converter runs on each of the eleven inputs. -/
theorem calendarWorkedValues : Obligations.CalendarWorkedValues := by
  unfold Obligations.CalendarWorkedValues
  decide

/-! ### The reliability tiers -/

section
variable {c : Cfg} {w : Nat}

theorem reliability_eq_likelyOk_iff : reliability c w = .likelyOk ↔ w < c.tierOkLt := by
  unfold reliability
  split_ifs <;> simp [*]

theorem reliability_eq_notReliable_iff : reliability c w = .notReliable ↔ c.tierOkLt ≤ w ∧ w < c.tierNrLt := by
  unfold reliability
  split_ifs <;> simp <;> omega

/-- Without the order of the thresholds a score below TIER_OK_LT could lie above TIER_NR_LT. -/
theorem reliability_eq_probablyBad_iff (h : c.tierOkLt ≤ c.tierNrLt) :
    reliability c w = .probablyBad ↔ c.tierNrLt ≤ w := by
  unfold reliability
  split_ifs <;> simp <;> omega

end

/-- Settles O60: the three conditions, the last by the order of the thresholds (R6); the conditions place each value. -/
theorem reliabilityTiers : Obligations.ReliabilityTiers := by
  refine ⟨fun c w hc => ?_, reliability_eq_likelyOk_iff.2 ?_, reliability_eq_notReliable_iff.2 ?_,
    (reliability_eq_probablyBad_iff ?_).2 ?_, reliability_eq_likelyOk_iff.2 ?_, reliability_eq_notReliable_iff.2 ?_,
    (reliability_eq_probablyBad_iff ?_).2 ?_⟩
  · obtain ⟨-, -, -, -, -, htiers⟩ := (Cfg.valid_iff c).1 hc
    exact ⟨reliability_eq_likelyOk_iff, reliability_eq_notReliable_iff, reliability_eq_probablyBad_iff htiers⟩
  all_goals decide

end Sys2Proof.Machine
end

section
/-! Errors (60_exceptions.md R202 – R206): an error is taken by `State.raise` and by nothing else, and each operation's
error as a condition on its operands. -/

namespace Sys2Proof.Machine

/-! ### An illegal word -/

theorem decodeTableWord_eq_none_iff {nbits w : Nat} :
    decodeTableWord nbits w = none ↔ ∃ r, decode (wordOfTable nbits w) = .error r := by
  unfold decodeTableWord
  cases decode (wordOfTable nbits w) <;> simp

/-- Settles O8: the engine has the turn, scheduled or not, and raises ILLEGAL on a word that no row matches. -/
theorem stepOnIllegalWordRaisesIllegal : Obligations.StepOnIllegalWordRaisesIllegal := by
  refine ⟨fun s w r hc hrun hdec => ⟨fun hs => ?_, fun ts hs => ?_⟩, fun s nbits w hc hnone => ?_⟩
  · exact (step_of_no_turn hc hs).trans (engineTurn_illegal hrun hdec)
  · exact (step_of_engine hc hs).trans (engineTurn_illegal hrun hdec)
  · obtain ⟨r, hdec⟩ := decodeTableWord_eq_none_iff.1 hnone
    exact (step_of_engine (s := s.withFetchWord nbits w) hc rfl).trans
      (engineTurn_illegal (s := s.accept (wordOfTable nbits w)) rfl hdec)

/-! ### An error changes STATUS alone -/

theorem exec_error_eq_raise {i : Instr} {s t : State} (h : exec i s = .next t) (he : t.err ≠ .noError) :
    t = s.raise t.err := by
  obtain rfl := exec_next_iff.1 h
  rw [conclude_err] at he ⊢
  exact conclude_of_error he

/-- An idle engine keeps the error of the command before, so a command has to be running. -/
theorem engineTurn_error_eq_raise {s t : State} (hb : s.busy = true) (h : engineTurn s = .next t)
    (he : t.err ≠ .noError) : t = s.raise t.err := by
  rcases engineTurn_cases s with ⟨hidle, -⟩ | ⟨w, i, -, -, hrun⟩ | ⟨w, r, -, -, hillegal⟩
  · simp [State.busy, hidle] at hb
  · exact exec_error_eq_raise (hrun.symm.trans h) he
  · cases hillegal.symm.trans h
    rfl

/-- Settles O46: an error is taken by `State.raise`, which writes STATUS alone; the engine's turn leaves the engine idle,
so the next command is accepted. -/
theorem errorChangesStatusAlone : Obligations.ErrorChangesStatusAlone := by
  refine ⟨fun _ _ _ => exec_error_eq_raise, fun _ _ => engineTurn_error_eq_raise, fun s t w ts hc _ h _ => ?_⟩
  have hvalid : t.cfg.valid = true := (engineTurn_keeps_cfg h).symm ▸ hc
  have hidle : t.busy = false := (engineTurn_ends h).1
  exact commandWriteIsAccepted { t with schedule := issue w :: ts } w ts hvalid hidle rfl

/-! ### The cause of an error -/

theorem errorOf_score {sym : Nat} (h : sym < 4) (c : Cfg) (start : Nat) :
    errorOf c (.score sym start) =
      if sym = 3 then .operand else if start + c.sps ≤ c.n then .noError else .bounds := by
  interval_cases sym <;> rfl

theorem errorOf_decfield {f : Nat} (h : f < 8) (c : Cfg) (start : Nat) :
    errorOf c (.decfield f start) =
      if f = 7 then .operand else if start + c.frameLen ≤ c.n then .noError else .bounds := by
  interval_cases f <;> rfl

/-- R204: an extent that ends at `last` is checked against the `n` cells, and nothing else is. -/
theorem boundsCheck_causes (last n : Nat) {e : CmdError} (he : e = if last ≤ n then .noError else .bounds) :
    (e = .bounds ↔ n < last) ∧ e ≠ .operand ∧ e ≠ .illegal := by
  subst he
  split <;> simp <;> omega

/-- R203, R205: a check of the operand that comes before the check of the extent. -/
theorem operandCheck_causes (bad : Prop) [Decidable bad] (last n : Nat) {e : CmdError}
    (he : e = if bad then .operand else if last ≤ n then .noError else .bounds) :
    (e = .operand ↔ bad) ∧ (e = .bounds ↔ ¬bad ∧ n < last) ∧ e ≠ .illegal := by
  by_cases h : bad
  · simp [he, h]
  · rw [if_neg h] at he
    obtain ⟨hbounds, hoperand, hillegal⟩ := boundsCheck_causes last n he
    simp [h, hbounds, hoperand, hillegal]

theorem err_eq_errorOf {i : Instr} {s t : State} (h : exec i s = .next t) : t.err = errorOf s.cfg i := by
  rw [exec_next_iff.1 h, conclude_err]

/-- Settles O47: the error an operation ends with is `errorOf`, a check of the operand and then of the extent. -/
theorem eachErrorHasItsCause : Obligations.EachErrorHasItsCause := by
  intro s t sym f start hsym hf
  refine ⟨fun h => ?_, fun h => ?_, err_eq_errorOf, fun h => ?_, fun h => ?_, err_eq_errorOf⟩
  · exact operandCheck_causes _ _ _ ((err_eq_errorOf h).trans (errorOf_score hsym s.cfg start))
  · exact boundsCheck_causes _ _ (err_eq_errorOf h)
  · exact operandCheck_causes _ _ _ ((err_eq_errorOf h).trans (errorOf_decfield hf s.cfg start))
  · exact boundsCheck_causes _ _ (err_eq_errorOf h)

end Sys2Proof.Machine
end

section
/-! The work of the frame search (70_reset_and_hazards.md R251): how many `score` evaluations one candidate, one round and
the whole procedure of R145 make. -/

namespace Sys2Proof.Machine

section
variable {p : Prune} {c : Cfg} {S : Samples}

/-! ### One candidate -/

/-- A candidate is scored at least once before it can be abandoned, and once for each entry at most. -/
theorem refCandidate_evals (best : Option Nat) (c0 : Nat) (es : List FixedPos) (total evals : Nat) :
    evals + min 1 es.length ≤ (refCandidate p c S best c0 es total evals).2 ∧
      (refCandidate p c S best c0 es total evals).2 ≤ evals + es.length := by
  induction es generalizing total evals with
  | nil => exact ⟨Nat.le_refl _, Nat.le_refl _⟩
  | cons e es ih =>
    rw [refCandidate, List.length_cons]
    cases p.abandons c0 es.length best (total + entryScore c S c0 e) with
    | true => simp only [cond_true]; omega
    | false =>
      have hrest := ih (total + entryScore c S c0 e) (evals + 1)
      simp only [cond_false]
      omega

theorem refCandidate_evals_of_not_abandoned {best : Option Nat} {c0 : Nat}
    (h : ∀ left total, p.abandons c0 left best total = false) (es : List FixedPos) (total evals : Nat) :
    (refCandidate p c S best c0 es total evals).2 = evals + es.length := by
  induction es generalizing total evals with
  | nil => rfl
  | cons e es ih => rw [refCandidate, h, cond_false, ih, List.length_cons, Nat.succ_add_eq_add_succ]

theorem never_abandons (c0 left : Nat) (best : Option Nat) (total : Nat) :
    Prune.never.abandons c0 left best total = false := by cases best <;> rfl

/-! ### One round -/

@[simp] theorem offer_evals (r : RefSearch) (c0 : Nat) (total : Option Nat) : (r.offer c0 total).evals = r.evals := by
  cases total with
  | none => rw [offer_none]
  | some t =>
    cases hbest : r.best with
    | none => simp [RefSearch.offer, hbest]
    | some b => cases hlt : Nat.blt t b <;> simp [RefSearch.offer, hbest, hlt]

theorem refRound_evals (r : RefSearch) (c0 : Nat) :
    (refRound p c S r c0).evals = (refCandidate p c S r.best c0 c.fixmap 0 r.evals).2 := offer_evals _ _ _

/-- `f` makes at least `lo` and at most `hi` evaluations in every round. -/
def RoundEvals (f : RefSearch → Nat → RefSearch) (lo hi : Nat) : Prop :=
  ∀ r c0, r.evals + lo ≤ (f r c0).evals ∧ (f r c0).evals ≤ r.evals + hi

theorem RoundEvals.foldl {f : RefSearch → Nat → RefSearch} {lo hi : Nat} (h : RoundEvals f lo hi) (cs : List Nat)
    (r : RefSearch) :
    r.evals + lo * cs.length ≤ (cs.foldl f r).evals ∧ (cs.foldl f r).evals ≤ r.evals + hi * cs.length := by
  induction cs generalizing r with
  | nil => exact ⟨Nat.le_refl _, Nat.le_refl _⟩
  | cons c0 cs ih =>
    have hround := h r c0
    have hrest := ih (f r c0)
    rw [List.foldl_cons, List.length_cons, Nat.mul_succ, Nat.mul_succ]
    omega

section
variable (hc : c.valid = true)
include hc

theorem roundEvals_refRound : RoundEvals (refRound p c S) 1 18 := by
  intro r c0
  have hcand := refCandidate_evals (p := p) (c := c) (S := S) r.best c0 c.fixmap 0 r.evals
  rw [Cfg.valid_fixmap_length hc] at hcand
  rw [refRound_evals]
  exact hcand

theorem refRound_evals_of_not_abandoned {r : RefSearch} {c0 : Nat}
    (h : ∀ left total, p.abandons c0 left r.best total = false) : (refRound p c S r c0).evals = r.evals + 18 := by
  rw [refRound_evals, refCandidate_evals_of_not_abandoned h, Cfg.valid_fixmap_length hc]

theorem roundEvals_never : RoundEvals (refRound Prune.never c S) 18 18 := fun r c0 =>
  have h := refRound_evals_of_not_abandoned hc (S := S) (r := r) fun left => never_abandons c0 left r.best
  ⟨h.ge, h.le⟩

end

end

/-! ### The obligation -/

/-- Settles O27: candidate 0 meets no best to exceed and costs 18 evaluations, each later one between 1 and 18; without
pruning each costs 18. -/
theorem searchWorkIsBounded : Obligations.SearchWorkIsBounded := by
  intro c S hc
  have hfirst : (refRound Prune.exceeds c S ⟨none, none, 0⟩ 0).evals = 0 + 18 :=
    refRound_evals_of_not_abandoned hc fun _ _ => rfl
  have hlater := (roundEvals_refRound (p := Prune.exceeds) (S := S) hc).foldl ((List.range c.lastCand).map Nat.succ)
    (refRound Prune.exceeds c S ⟨none, none, 0⟩ 0)
  have hnever := (roundEvals_never (S := S) hc).foldl (List.range (c.lastCand + 1)) ⟨none, none, 0⟩
  rw [List.length_map, List.length_range, hfirst] at hlater
  rw [List.length_range] at hnever
  simp only [refSearch, List.range_succ_eq_map, List.foldl_cons] at hnever ⊢
  omega

end Sys2Proof.Machine
end

section
/-! Reset and hazards (70_reset_and_hazards.md R230, R241, R242): the reset edge, and the host's accesses while an
operation runs. -/

namespace Sys2Proof.Machine

/-! ### The reset edge -/

theorem regValue_rstEdge (s : State) (k : RegName) : s.rstEdge.regValue k = (State.resetOf s.cfg).regValue k := by
  cases k <;> rfl

/-- Settles O11: after the edge every register reads as after power-up, and the sample space is not written. -/
theorem resetEdgeClearsAllButSamples : Obligations.ResetEdgeClearsAllButSamples := by
  intro s ts hc hs
  obtain ⟨hstatus, hzero, -⟩ := resetStateReadsAsSpecified s.cfg hc
  refine ⟨State.rstEdge { s with schedule := ts }, step_of_turn hc hs, rfl, hstatus, rfl, fun k hsps hn hfailure => ?_,
    fun k hk => ?_, fun i => rfl, rfl⟩
  · rw [regValue_rstEdge]
    exact hzero k hsps hn hfailure
  · rcases hk with rfl | rfl | rfl <;> rfl

/-! ### Writes while busy -/

/-- The addresses of the cells are those of the sample window (R61). -/
theorem cellAddr_of_window {c : Cfg} {a : BusAddr} (ha : a.toNat % 4 = 0) (hlo : 0x4000000 ≤ a.toNat)
    (hhi : a.toNat < 0x4000000 + 4 * c.n) : ∃ i < c.n, a = BitVec.ofNat 27 (0x4000000 + 4 * i) := by
  refine ⟨(a.toNat - 0x4000000) / 4, by omega, BitVec.eq_of_toNat_eq ?_⟩
  have hlt := a.isLt
  rw [BitVec.toNat_ofNat]
  omega

theorem step_of_cmd_write_busy {s : State} {d : Word} {ts : List Turn} (hc : s.cfg.valid = true) (hb : s.busy = true)
    (hs : s.schedule = .write 0 4 d :: ts) : step s = .next (State.dropWrite { s with schedule := ts }) := by
  have hu : State.busy { s with schedule := ts } = true := hb
  rw [step_of_write hc rfl hs, busWrite_cmd, hu, cond_true]

/-- OVR and ANYERR, once set, are still set in `t` (R207, R241). -/
def FlagsStick (s t : State) : Prop := (s.ovr = true → t.ovr = true) ∧ (s.anyErr = true → t.anyErr = true)

theorem flagsStick_exec {i : Instr} {s t : State} (h : exec i s = .next t) : FlagsStick s t := by
  have hrest := exec_keepsTheRest h
  exact ⟨fun hovr => hrest.ovr.trans hovr, fun hany => by rw [hrest.anyErr, hany, Bool.true_or]⟩

theorem flagsStick_engineTurn {s t : State} (h : engineTurn s = .next t) : FlagsStick s t := by
  rcases engineTurn_cases s with ⟨-, hidle⟩ | ⟨w, i, -, -, hrun⟩ | ⟨w, r, -, -, hillegal⟩
  · cases hidle.symm.trans h
    exact ⟨id, id⟩
  · exact flagsStick_exec (hrun.symm.trans h)
  · cases hillegal.symm.trans h
    exact ⟨id, fun _ => rfl⟩

theorem flagsStick_busWrite (s : State) (a : BusAddr) (d : Word) : FlagsStick s (s.busWrite a d) := by
  rcases busWrite_cases s a d with ⟨h, -⟩ | ⟨h, -⟩ | ⟨i, -, h, -⟩ | h <;> rw [h]
  · exact ⟨id, id⟩
  · exact ⟨fun _ => rfl, id⟩
  · exact ⟨id, id⟩
  · exact ⟨id, id⟩

theorem flagsStick_busRead (s : State) (a : BusAddr) : FlagsStick s (s.busRead a) := by
  rcases busRead_cases s a with ⟨d, h⟩ | ⟨k, h⟩ <;> rw [h] <;> exact ⟨id, id⟩

theorem flagsStick_step {s t : State} (h : step s = .next t) (hrst : s.schedule.head? ≠ some .rst) : FlagsStick s t := by
  obtain ⟨-, ⟨-, he⟩ | ⟨ts, ⟨-, he⟩ | ⟨hs, -⟩ | ⟨a, size, d, -, -, rfl⟩ | ⟨a, size, -, -, rfl⟩⟩⟩ := step_cases h
  · exact flagsStick_engineTurn he
  · exact flagsStick_engineTurn (s := { s with schedule := ts }) he
  · exact absurd (congrArg List.head? hs) hrst
  · exact flagsStick_busWrite { s with schedule := ts } a d
  · exact flagsStick_busRead { s with schedule := ts } a

/-- R241: no operation reads OVR. -/
theorem commit_dropWrite (s : State) (i : Instr) : commit s.dropWrite i = (commit s i).dropWrite := by
  cases i with
  | score sym start => simp only [commit]; split <;> rfl
  | decfield f start => simp only [commit]; split <;> rfl
  | _ => rfl

theorem conclude_dropWrite (s : State) (i : Instr) : conclude s.dropWrite i = (conclude s i).dropWrite := by
  by_cases herr : errorOf s.cfg i = .noError
  · rw [conclude_of_noError herr, conclude_of_noError (s := s.dropWrite) herr, commit_dropWrite]
    rfl
  · rw [conclude_of_error herr, conclude_of_error (s := s.dropWrite) herr]
    rfl

/-- Settles O55: a write to `CMD` or a cell is dropped, a turn that is no reset edge keeps both flags, and an operation
concludes alike with OVR set. -/
theorem writesWhileBusyAreDropped : Obligations.WritesWhileBusyAreDropped := by
  refine ⟨fun s a d ts hc hb ha htarget hs => ?_, fun s t => flagsStick_step, fun i s t h => ?_⟩
  · obtain rfl | ⟨hlo, hhi⟩ := htarget
    · exact step_of_cmd_write_busy hc hb hs
    · obtain ⟨i, hi, rfl⟩ := cellAddr_of_window ha hlo hhi
      exact step_of_cell_write_busy hc hi hb hs
  · obtain rfl := exec_next_iff.1 h
    exact exec_next_iff.2 (conclude_dropWrite s i).symm

/-! ### Reads while busy -/

theorem busRead_register_busy {s : State} {r : Nat} (hr : r < 64) (hb : s.busy = true) :
    s.busRead (BitVec.ofNat 27 (4 * r)) =
      bif (regOf r).isResult then s.answerFree (regOf r) else s.answer (s.regValue (regOf r)) := by
  simp only [State.busRead, busTarget_register s.cfg hr, hb, Bool.true_and]

theorem step_of_register_read_busy {s : State} {r : Nat} {ts : List Turn} (hc : s.cfg.valid = true) (hr : r < 64)
    (hb : s.busy = true) (hs : s.schedule = readRegister r :: ts) :
    step s = .next (bif (regOf r).isResult then State.answerFree { s with schedule := ts } (regOf r)
      else State.answer { s with schedule := ts } (s.regValue (regOf r))) := by
  have haddr : (BitVec.ofNat 27 (4 * r)).toNat % 4 = 0 := by
    rw [BitVec.toNat_ofNat]; omega
  exact (step_of_read hc haddr hs).trans (congrArg _ (busRead_register_busy (s := { s with schedule := ts }) hr hb))

/-- The free value is reduced to the register's width, so the bus word holds it. -/
theorem answerFree_rdata_toNat (s : State) (k : RegName) :
    (s.answerFree k).rdata.toNat = (Config.freeRead s.freeReads).toNat % 2 ^ k.width := by
  rw [State.answerFree_rdata]
  exact toNat_ofNat_of_le (Nat.mod_le _ _) (Config.freeRead s.freeReads).isLt

/-- Settles O56: the read answers the register's value, or the next free value when it is a result register. -/
theorem readsWhileBusy : Obligations.ReadsWhileBusy := by
  intro s r ts hc hr hb hs
  rw [step_of_register_read_busy hc hr hb hs]
  refine ⟨fun hres => ?_, fun hres => ?_⟩ <;> rw [hres]
  · rfl
  · have hdata := answerFree_rdata_toNat { s with schedule := ts } (regOf r)
    exact ⟨_, rfl, hdata.trans_lt (Nat.mod_lt _ (Nat.two_pow_pos _)), hdata, rfl⟩

end Sys2Proof.Machine
end
